-- ==== Sys2Proof/Word.lean ====
section
/-! DEFINITION. The word types of the block (00_scope.md R10 to R12): bytes, 16-bit words, 12-bit immediates, register
numbers, and the two truncations of the spec's notation. -/

namespace Sys2Proof

/-- One byte: a general register, a timer, a memory cell (10_state.md R20, R28, R34). -/
abbrev Byte := BitVec 8

/-- A 16-bit value: an instruction word, `pc`, `I`, a call-stack entry (10_state.md R24, R26, R27). -/
abbrev Word := BitVec 16

/-- The 12-bit field `nnn` (30_encoding.md R71). -/
abbrev Addr := BitVec 12

/-- The number of a general register, 0 to 15 (10_state.md R20). -/
abbrev Reg := Fin 16

/-- `trunc8(v) = v mod 256` (00_scope.md R12). -/
def trunc8 (n : Nat) : Byte := BitVec.ofNat 8 n

/-- `trunc16(v) = v mod 65536` (00_scope.md R12). -/
def trunc16 (n : Nat) : Word := BitVec.ofNat 16 n

end Sys2Proof
end

