-- ==== Sys2Proof/Syntax.lean ====
section
/-! DEFINITION. The instruction set: one constructor for each row of spec/opcode_table.json (30_encoding.md R76), the
fallback row for unknown words included (R78). Fields carry the names of R71. -/

namespace Sys2Proof

/-- One instruction, its fields pulled out of the word. -/
inductive Instr where
  /-- 00E0 CLS (44_display.md R201). -/
  | cls
  /-- 00EE RET (41_control_flow.md R103). -/
  | ret
  /-- 1nnn JP nnn (41_control_flow.md R101). -/
  | jp (nnn : Addr)
  /-- 2nnn CALL nnn (41_control_flow.md R102). -/
  | call (nnn : Addr)
  /-- 3xnn SE Vx, nn (41_control_flow.md R104). -/
  | seImm (x : Reg) (nn : Byte)
  /-- 4xnn SNE Vx, nn (41_control_flow.md R105). -/
  | sneImm (x : Reg) (nn : Byte)
  /-- 5xy0 SE Vx, Vy (41_control_flow.md R106). -/
  | seReg (x y : Reg)
  /-- 6xnn LD Vx, nn (42_alu.md R131). -/
  | ldImm (x : Reg) (nn : Byte)
  /-- 7xnn ADD Vx, nn (42_alu.md R132). -/
  | addImm (x : Reg) (nn : Byte)
  /-- 8xy0 LD Vx, Vy (42_alu.md R133). -/
  | ldReg (x y : Reg)
  /-- 8xy1 OR Vx, Vy (42_alu.md R134). -/
  | orReg (x y : Reg)
  /-- 8xy2 AND Vx, Vy (42_alu.md R135). -/
  | andReg (x y : Reg)
  /-- 8xy3 XOR Vx, Vy (42_alu.md R136). -/
  | xorReg (x y : Reg)
  /-- 8xy4 ADD Vx, Vy (42_alu.md R137). -/
  | addReg (x y : Reg)
  /-- 8xy5 SUB Vx, Vy (42_alu.md R138). -/
  | subReg (x y : Reg)
  /-- 8xy6 SHR Vx, Vy (42_alu.md R139). -/
  | shr (x y : Reg)
  /-- 8xy7 SUBN Vx, Vy (42_alu.md R140). -/
  | subnReg (x y : Reg)
  /-- 8xyE SHL Vx, Vy (42_alu.md R141). -/
  | shl (x y : Reg)
  /-- 9xy0 SNE Vx, Vy (41_control_flow.md R107). -/
  | sneReg (x y : Reg)
  /-- Annn LD I, nnn (43_index_memory.md R170). -/
  | ldI (nnn : Addr)
  /-- Bnnn JP V0, nnn (41_control_flow.md R108); its field `x` is `nnn[11:8]`. -/
  | jpV0 (nnn : Addr)
  /-- Cxnn RND Vx, nn (42_alu.md R142). -/
  | rnd (x : Reg) (nn : Byte)
  /-- Dxyn DRW Vx, Vy, n (44_display.md R202); `n` is a row count, 0 to 15. -/
  | drw (x y : Reg) (n : Fin 16)
  /-- Ex9E SKP Vx (45_timers_input.md R234). -/
  | skp (x : Reg)
  /-- ExA1 SKNP Vx (45_timers_input.md R235). -/
  | sknp (x : Reg)
  /-- Fx07 LD Vx, DT (45_timers_input.md R231). -/
  | ldVxDt (x : Reg)
  /-- Fx0A LD Vx, K (45_timers_input.md R236). -/
  | ldVxK (x : Reg)
  /-- Fx15 LD DT, Vx (45_timers_input.md R232). -/
  | ldDtVx (x : Reg)
  /-- Fx18 LD ST, Vx (45_timers_input.md R233). -/
  | ldStVx (x : Reg)
  /-- Fx1E ADD I, Vx (43_index_memory.md R171). -/
  | addI (x : Reg)
  /-- Fx29 LD F, Vx (43_index_memory.md R173). -/
  | ldF (x : Reg)
  /-- Fx33 LD B, Vx (43_index_memory.md R174). -/
  | ldB (x : Reg)
  /-- Fx55 LD [I], Vx (43_index_memory.md R175). -/
  | stRegs (x : Reg)
  /-- Fx65 LD Vx, [I] (43_index_memory.md R176). -/
  | ldRegs (x : Reg)
  /-- Any word that matches no row above (30_encoding.md R78). -/
  | unknown (w : Word)
deriving DecidableEq, Repr

end Sys2Proof
end

