-- ==== Sys2Proof/Decode.lean ====
section
/-! DEFINITION. The instruction decoder (30_encoding.md R71, R76 to R79) and the encoder. Decoding is total: a word that
selects no row decodes to the unknown instruction. -/

namespace Sys2Proof

/-- The field set of R71; the fields overlap and all six are produced for every word. -/
structure Fields where
  c : BitVec 4
  x : Reg
  y : Reg
  n : Fin 16
  nn : Byte
  nnn : Addr
deriving DecidableEq, Repr

/-- A 4-bit field as the number 0 to 15 it stands for. -/
def nibbleNum (b : BitVec 4) : Fin 16 := ⟨b.toNat, b.isLt⟩

/-- A number 0 to 15 as a 4-bit field. -/
def nibbleBits (r : Fin 16) : BitVec 4 := BitVec.ofNat 4 r.val

/-- The field decoder of R71. -/
def fields (w : Word) : Fields where
  c := w.extractLsb' 12 4
  x := nibbleNum (w.extractLsb' 8 4)
  y := nibbleNum (w.extractLsb' 4 4)
  n := nibbleNum (w.extractLsb' 0 4)
  nn := w.extractLsb' 0 8
  nnn := w.extractLsb' 0 12

/-- Category 0 compares the whole word (R77). -/
def decodeSystem (w : Word) : Instr :=
  if w = 0x00E0#16 then .cls else if w = 0x00EE#16 then .ret else .unknown w

/-- Category 8: the sub-selector is `n` (R76). -/
def decodeAlu (w : Word) (f : Fields) : Instr :=
  match f.n.val with
  | 0x0 => .ldReg f.x f.y
  | 0x1 => .orReg f.x f.y
  | 0x2 => .andReg f.x f.y
  | 0x3 => .xorReg f.x f.y
  | 0x4 => .addReg f.x f.y
  | 0x5 => .subReg f.x f.y
  | 0x6 => .shr f.x f.y
  | 0x7 => .subnReg f.x f.y
  | 0xE => .shl f.x f.y
  | _ => .unknown w

/-- Category E: the sub-selector is `nn` (R76). -/
def decodeKey (w : Word) (f : Fields) : Instr :=
  match f.nn.toNat with
  | 0x9E => .skp f.x
  | 0xA1 => .sknp f.x
  | _ => .unknown w

/-- Category F: the sub-selector is `nn` (R76). -/
def decodeMisc (w : Word) (f : Fields) : Instr :=
  match f.nn.toNat with
  | 0x07 => .ldVxDt f.x
  | 0x0A => .ldVxK f.x
  | 0x15 => .ldDtVx f.x
  | 0x18 => .ldStVx f.x
  | 0x1E => .addI f.x
  | 0x29 => .ldF f.x
  | 0x33 => .ldB f.x
  | 0x55 => .stRegs f.x
  | 0x65 => .ldRegs f.x
  | _ => .unknown w

/-- Select by category, with the category's fields at hand (R74, R76, R77). -/
def decodeFields (w : Word) (f : Fields) : Instr :=
  match f.c.toNat with
  | 0x0 => decodeSystem w
  | 0x1 => .jp f.nnn
  | 0x2 => .call f.nnn
  | 0x3 => .seImm f.x f.nn
  | 0x4 => .sneImm f.x f.nn
  | 0x5 => if f.n.val = 0 then .seReg f.x f.y else .unknown w
  | 0x6 => .ldImm f.x f.nn
  | 0x7 => .addImm f.x f.nn
  | 0x8 => decodeAlu w f
  | 0x9 => if f.n.val = 0 then .sneReg f.x f.y else .unknown w
  | 0xA => .ldI f.nnn
  | 0xB => .jpV0 f.nnn
  | 0xC => .rnd f.x f.nn
  | 0xD => .drw f.x f.y f.n
  | 0xE => decodeKey w f
  | 0xF => decodeMisc w f
  | _ => .unknown w

/-- Decode one instruction word (R71, R76, R77, R78). -/
def decode (w : Word) : Instr := decodeFields w (fields w)

/-- Why a list of bytes gives no instruction. -/
inductive DecodeError where
  /-- Fewer than two bytes are left, and every instruction is exactly two (R70). -/
  | truncated
deriving DecidableEq, Repr

/-- `hi ++ lo`: the byte at the lower address is bits 15:8 (20_memory.md R53). -/
def wordOfBytes (hi lo : Byte) : Word := hi ++ lo

/-- Decode the instruction at the head of a list of bytes, and the bytes after it (20_memory.md R53; R70). -/
def decodeBytes : List Byte → Except DecodeError (Instr × List Byte)
  | hi :: lo :: rest => .ok (decode (wordOfBytes hi lo), rest)
  | [_] => .error .truncated
  | [] => .error .truncated

/-- The pattern `cnnn`. -/
def encNnn (c : BitVec 4) (nnn : Addr) : Word := c ++ nnn

/-- The pattern `cxnn`. -/
def encXnn (c : BitVec 4) (x : Reg) (nn : Byte) : Word := c ++ nibbleBits x ++ nn

/-- The pattern `cxyn`. -/
def encXyn (c : BitVec 4) (x y n : Fin 16) : Word := c ++ nibbleBits x ++ nibbleBits y ++ nibbleBits n

/-- The word of an instruction, from the encoding column of R76; the word of an unknown instruction is its own. -/
def encode : Instr → Word
  | .cls => 0x00E0
  | .ret => 0x00EE
  | .jp nnn => encNnn 0x1 nnn
  | .call nnn => encNnn 0x2 nnn
  | .seImm x nn => encXnn 0x3 x nn
  | .sneImm x nn => encXnn 0x4 x nn
  | .seReg x y => encXyn 0x5 x y 0x0
  | .ldImm x nn => encXnn 0x6 x nn
  | .addImm x nn => encXnn 0x7 x nn
  | .ldReg x y => encXyn 0x8 x y 0x0
  | .orReg x y => encXyn 0x8 x y 0x1
  | .andReg x y => encXyn 0x8 x y 0x2
  | .xorReg x y => encXyn 0x8 x y 0x3
  | .addReg x y => encXyn 0x8 x y 0x4
  | .subReg x y => encXyn 0x8 x y 0x5
  | .shr x y => encXyn 0x8 x y 0x6
  | .subnReg x y => encXyn 0x8 x y 0x7
  | .shl x y => encXyn 0x8 x y 0xE
  | .sneReg x y => encXyn 0x9 x y 0x0
  | .ldI nnn => encNnn 0xA nnn
  | .jpV0 nnn => encNnn 0xB nnn
  | .rnd x nn => encXnn 0xC x nn
  | .drw x y n => encXyn 0xD x y n
  | .skp x => encXnn 0xE x 0x9E
  | .sknp x => encXnn 0xE x 0xA1
  | .ldVxDt x => encXnn 0xF x 0x07
  | .ldVxK x => encXnn 0xF x 0x0A
  | .ldDtVx x => encXnn 0xF x 0x15
  | .ldStVx x => encXnn 0xF x 0x18
  | .addI x => encXnn 0xF x 0x1E
  | .ldF x => encXnn 0xF x 0x29
  | .ldB x => encXnn 0xF x 0x33
  | .stRegs x => encXnn 0xF x 0x55
  | .ldRegs x => encXnn 0xF x 0x65
  | .unknown w => w

/-- The bytes of a word as memory holds them, the high byte at the lower address (20_memory.md R53). -/
def wordBytes (w : Word) : List Byte := [w.extractLsb' 8 8, w.extractLsb' 0 8]

/-- The instruction the decoder reads from the word with bits `w`, numbered as spec/opcode_table.json numbers them; bits
at or above `nbits` are 0. -/
def decodeTableWord (nbits w : Nat) : Option Instr :=
  match decodeBytes (wordBytes (BitVec.ofNat 16 (w % 2 ^ nbits))) with
  | .ok (i, _) => some i
  | .error _ => none

end Sys2Proof
end

