-- ==== Sys2Proof/Config.lean ====
section
/-! DEFINITION. The parameters of the block (00_scope.md R10, 10_state.md R36, 43_index_memory.md R172, R177) and the
free values the spec leaves to the environment. A constant declared `opaque` has no body: no proof can use its value. -/

namespace Sys2Proof

/-- `FX_MEMORY_OPS` (43_index_memory.md R172): whether Fx29, Fx33, Fx55 and Fx65 have a meaning. -/
inductive FxMemoryOps where
  /-- The four words decode to R173 to R176 (the spec's default). -/
  | conventional
  /-- A step that fetches one of the four words ends in a refusal. -/
  | refuse
deriving DecidableEq, Repr

/-- `LOADSTORE_I_MODE` (43_index_memory.md R177): how far Fx55 and Fx65 advance `I`. -/
inductive LoadStoreIMode where
  /-- `inc(x) = 0`. -/
  | unchanged
  /-- `inc(x) = x`. -/
  | plusX
  /-- `inc(x) = x + 1`. -/
  | plusXPlus1
deriving DecidableEq, Repr, Inhabited

/-- What construction fixes for the lifetime of the block (10_state.md R36; 00_scope.md R10). No instruction and no
host operation writes any of it. -/
structure Params where
  /-- `SHIFT_USES_Y` (10_state.md R36). -/
  shiftUsesY : Bool
  /-- `JUMP_USES_X` (10_state.md R36). -/
  jumpUsesX : Bool
  /-- `FX_MEMORY_OPS` (43_index_memory.md R172). -/
  fxMemoryOps : FxMemoryOps
  /-- `LOADSTORE_I_MODE` (43_index_memory.md R177). -/
  loadStoreIMode : LoadStoreIMode
  /-- `STACK_DEPTH` (10_state.md R27): `none` is the unbounded stack. -/
  stackDepth : Option Nat
deriving DecidableEq, Repr

/-- The quirk flag `SHIFT_USES_Y` the block is constructed with: OPEN (D18; log entry 3, DESIGN CHOICE, safe). -/
opaque Config.shiftUsesY : Bool

/-- The quirk flag `JUMP_USES_X` the block is constructed with: OPEN (D18; log entry 3, DESIGN CHOICE, safe). -/
opaque Config.jumpUsesX : Bool

/-- `LOADSTORE_I_MODE`: OPEN (D7; log entry 5, DESIGN CHOICE, safe). -/
opaque Config.loadStoreIMode : LoadStoreIMode

/-- The step input `tick_due` of the k-th `execute` (45_timers_input.md R230; log entry 1, DESIGN CHOICE, safe). -/
opaque Config.tickDue : Nat → Bool

/-- The step input `rand_byte` of the k-th executing Cxnn (42_alu.md R142; log entry 2, DESIGN CHOICE, safe). -/
opaque Config.randByte : Nat → Byte

/-- What the 16-bit register `I` holds after Fx55 or Fx65 whose exact sum `I + inc(x)` does not fit 16 bits: the spec
states no value (log entry 10, DESIGN CHOICE, safe). -/
opaque Config.indexPast16 : Nat → Word

/-- The parameters `State.reset` is constructed with: the spec's defaults where it gives one (`FX_MEMORY_OPS`, log entry
4; `STACK_DEPTH`, log entry 6), an open constant where it leaves the value OPEN. -/
def Config.params : Params where
  shiftUsesY := Config.shiftUsesY
  jumpUsesX := Config.jumpUsesX
  fxMemoryOps := .conventional
  loadStoreIMode := Config.loadStoreIMode
  stackDepth := none

end Sys2Proof
end

