-- ==== Sys2Proof/Machine/State.lean ====
section
/-! DEFINITION. The state of the block (10_state.md R20 to R40) as plain data, the reasons a step can stop, and the state
after construction. -/

namespace Sys2Proof.Machine

/-- The framebuffer: 32 rows of 64 boolean pixels, `fb[row][col]` (10_state.md R31). -/
abbrev Framebuffer := Vector (Vector Bool 64) 32

/-- Memory: the bytes that differ from the construction contents, by rising address (log entry 7). -/
abbrev Memory := List Host.Cell

/-- `fault_cause` (10_state.md R37). -/
inductive FaultCause where
  /-- RET with an empty stack (60_exceptions.md R261). -/
  | stackUnderflow
  /-- SKP or SKNP with `V[x] > 15` (60_exceptions.md R262). -/
  | keyIndexOutOfRange
  /-- CALL with a finite `STACK_DEPTH` and a full stack (60_exceptions.md R263). -/
  | stackOverflow
deriving DecidableEq, Repr

/-- Every piece of state the spec gives the block, its parameters, the step output it calls no state, and the model's own
counters. -/
structure State where
  /-- V0 to VF (R20, R21). -/
  v : Vector Byte 16
  /-- The index register I (R26). -/
  i : Word
  /-- The program counter (R24, R25). -/
  pc : Word
  /-- The call stack, its top at the end (R27, 00_scope.md R13). -/
  stack : List Word
  /-- The delay timer DT (R28). -/
  dt : Byte
  /-- The sound timer ST (R29). -/
  st : Byte
  /-- The framebuffer (R31). -/
  fb : Framebuffer
  /-- The redraw flag (R32). -/
  redraw : Bool
  /-- The key state, written by the host alone (R33). -/
  key : Vector Bool 16
  /-- Memory (R34). -/
  mem : Memory
  /-- `halted` (R37). -/
  halted : Bool
  /-- `fault_cause`; `none` while no fault has happened (R37). -/
  faultCause : Option FaultCause
  /-- The construction arguments and parameters (R36; 00_scope.md R10). -/
  params : Params
  /-- The outputs `unknown_event` and `unknown_word` of the last step: `some w` is `unknown_event = 1` with
  `unknown_word = w` (R38; log entry 8). -/
  unknownReport : Option Word
  /-- The model's own: how many `tick_due` inputs have been sampled (log entry 1). -/
  tickSamples : Nat
  /-- The model's own: how many `rand_byte` inputs have been drawn (log entry 2). -/
  randDraws : Nat
  /-- The model's own: `load_program` is still allowed (70_reset_and_hazards.md R292; log entry 13). -/
  loadable : Bool
deriving DecidableEq, Repr

/-- Why a step has no next state. -/
inductive Fault where
  /-- `execute` of a halted block: "no step" (60_exceptions.md R266). Raised by `step` alone. Safe: it is the spec's own
  stuck state (log entry 9). -/
  | halted
deriving DecidableEq, Repr

/-- What the model gives no meaning. -/
inductive Refusal where
  /-- An instruction without a meaning yet. Raised by an arm of `exec` alone. Safe. -/
  | notModelled (mnemonic : String)
  /-- Fx29, Fx33, Fx55 or Fx65 under `FX_MEMORY_OPS = refuse` (43_index_memory.md R172). Raised by those four meanings.
  Safe: the spec's own refusal. -/
  | fxMemoryOps
  /-- `load_program` outside its precondition (70_reset_and_hazards.md R292). Raised by that host operation alone. Safe:
  the spec gives it no move. -/
  | loadProgram
deriving DecidableEq, Repr

/-- The state right after construction, before `load_program` (10_state.md R40). -/
def State.reset : State where
  v := Vector.replicate 16 0
  i := 0x0000
  pc := 0x0200
  stack := []
  dt := 0
  st := 0
  fb := Vector.replicate 32 (Vector.replicate 64 false)
  redraw := false
  key := Vector.replicate 16 false
  mem := []
  halted := false
  faultCause := none
  params := Config.params
  unknownReport := none
  tickSamples := 0
  randDraws := 0
  loadable := true

end Sys2Proof.Machine
end

