-- ==== Sys2Proof/Machine/Memory.lean ====
section
/-! DEFINITION. Memory (20_memory.md R50 to R58): the font, what an unlisted address reads as, the canonical form, and
reading and writing one byte. -/

namespace Sys2Proof.Machine

/-- Glyphs 0 to 7 of the default `FONT` (20_memory.md R58). -/
def fontLow : List Byte :=
  [0xF0, 0x90, 0x90, 0x90, 0xF0,  0x20, 0x60, 0x20, 0x20, 0x70,  0xF0, 0x10, 0xF0, 0x80, 0xF0,
   0xF0, 0x10, 0xF0, 0x10, 0xF0,  0x90, 0x90, 0xF0, 0x10, 0x10,  0xF0, 0x80, 0xF0, 0x10, 0xF0,
   0xF0, 0x80, 0xF0, 0x90, 0xF0,  0xF0, 0x10, 0x20, 0x40, 0x40]

/-- Glyphs 8 to F of the default `FONT` (20_memory.md R58). -/
def fontHigh : List Byte :=
  [0xF0, 0x90, 0xF0, 0x90, 0xF0,  0xF0, 0x90, 0xF0, 0x10, 0xF0,  0xF0, 0x90, 0xF0, 0x90, 0x90,
   0xE0, 0x90, 0xE0, 0x90, 0xE0,  0xF0, 0x80, 0x80, 0x80, 0xF0,  0xE0, 0x90, 0x90, 0x90, 0xE0,
   0xF0, 0x80, 0xF0, 0x80, 0xF0,  0xF0, 0x80, 0xF0, 0x80, 0x80]

/-- The default of the parameter `FONT`: 16 glyphs of 5 bytes (20_memory.md R58; log entry 7). -/
def defaultFont : List Byte := fontLow ++ fontHigh

/-- `MEM_SIZE` (00_scope.md R10). -/
def memSize : Nat := 4096

/-- What an address reads as while no entry lists it: the construction contents, `FONT` at 0x000 to 0x04F and zero above
(10_state.md R40, 20_memory.md R57; log entry 7). -/
def unlistedByte (a : Nat) : Byte := defaultFont.getD a 0

/-- The byte at address `a` (already reduced modulo 4096). -/
def Memory.read : Memory → Nat → Byte
  | [], a => unlistedByte a
  | (k, b) :: rest, a => if k = a then b else Memory.read rest a

/-- An entry for `a` in front of `rest`, unless the value is what an unlisted address reads as. -/
def Memory.consCell (a : Nat) (b : Byte) (rest : Memory) : Memory :=
  if b = unlistedByte a then rest else (a, b) :: rest

/-- Set the byte at address `a` (already reduced modulo 4096), keeping the canonical form. -/
def Memory.write : Memory → Nat → Byte → Memory
  | [], a, b => Memory.consCell a b []
  | (k, c) :: rest, a, b =>
    if a < k then Memory.consCell a b ((k, c) :: rest)
    else if a = k then Memory.consCell a b rest
    else (k, c) :: Memory.write rest a b

/-- The canonical form from a lower bound on: addresses strictly rising and below 4096, no entry equal to what its address
reads as unlisted. -/
def Memory.wfFrom (lo : Nat) : Memory → Bool
  | [] => true
  | (k, b) :: rest => decide (lo ≤ k) && decide (k < memSize) && decide (b ≠ unlistedByte k) && Memory.wfFrom (k + 1) rest

/-- The canonical form of memory (log entry 7). -/
def Memory.wf (m : Memory) : Bool := Memory.wfFrom 0 m

/-- `MemRead(addr, 1)` (20_memory.md R51). -/
def State.memRead (s : State) (addr : Nat) : Byte := Memory.read s.mem (addr % memSize)

/-- `MemWrite(addr, 1, b)` (20_memory.md R52). -/
def State.memWrite (s : State) (addr : Nat) (b : Byte) : State :=
  { s with mem := Memory.write s.mem (addr % memSize) b }

end Sys2Proof.Machine
end

