-- ==== Sys2Proof/Machine/Ops.lean ====
section
/-! DEFINITION. The named operations every meaning and the step go through: reading and writing one piece of state, the
skip, the call stack, taking a fatal fault, the unknown-instruction report, the timer tick, the fetch, the pixel write, and
the block transfers between registers and memory. -/

namespace Sys2Proof.Machine

/-! Reading and writing one piece of state. -/

/-- `V[x]` (00_scope.md R13). -/
def State.getV (s : State) (x : Reg) : Byte := s.v[x]

/-- `V[x] <- b`. No register discards a write (10_state.md R20). -/
def State.setV (s : State) (x : Reg) (b : Byte) : State := { s with v := s.v.set x.val b x.isLt }

/-- The number of VF (10_state.md R21). -/
def vf : Reg := 15

/-- `VF <- b`: the output slot for carry, borrow and collision (10_state.md R21). -/
def State.setVF (s : State) (b : Byte) : State := s.setV vf b

/-- `I <- w`. -/
def State.setI (s : State) (w : Word) : State := { s with i := w }

/-- `pc <- w`. -/
def State.setPc (s : State) (w : Word) : State := { s with pc := w }

/-- Replace the call stack. -/
def State.setStack (s : State) (l : List Word) : State := { s with stack := l }

/-- `DT <- b`. -/
def State.setDt (s : State) (b : Byte) : State := { s with dt := b }

/-- `ST <- b`. -/
def State.setSt (s : State) (b : Byte) : State := { s with st := b }

/-- Replace the framebuffer. -/
def State.setFb (s : State) (f : Framebuffer) : State := { s with fb := f }

/-- `redraw <- b`. -/
def State.setRedraw (s : State) (b : Bool) : State := { s with redraw := b }

/-- `key[k] <- b`; only host operations call it (10_state.md R33). -/
def State.setKey (s : State) (k : Fin 16) (b : Bool) : State := { s with key := s.key.set k.val b k.isLt }

/-! Control. -/

/-- `Skip(): pc <- trunc16(pc + 2)`, not reduced modulo 4096 (41_control_flow.md R100). -/
def State.skip (s : State) : State := s.setPc (trunc16 (s.pc.toNat + 2))

/-- `if c: Skip()` (41_control_flow.md R100). -/
def State.skipIf (s : State) (c : Bool) : State := if c then s.skip else s

/-- `pc <- trunc16(pc - 2 + 65536)`, the subtraction of 16-bit words: re-fetch the same word (45_timers_input.md R236). -/
def State.rewind (s : State) : State := s.setPc (s.pc - 2)

/-- `push(stack, w)`: the top is at the end (00_scope.md R13). -/
def State.push (s : State) (w : Word) : State := s.setStack (s.stack ++ [w])

/-- `raise Fault(cause)`: the one entry into the halted state; everything else stays (60_exceptions.md R266). -/
def State.raiseFault (s : State) (c : FaultCause) : State := { s with halted := true, faultCause := some c }

/-- `report Unknown(w)`: no architectural state changes (00_scope.md R15, 30_encoding.md R78). -/
def State.report (s : State) (w : Word) : State := { s with unknownReport := some w }

/-! The step around the handler. -/

/-- What the model keeps at the start of an `execute`: the last step's report ends (10_state.md R38), the step's `tick_due`
is sampled (45_timers_input.md R230), and `load_program` is over (70_reset_and_hazards.md R292). -/
def State.beginStep (s : State) : State :=
  { s with unknownReport := none, tickSamples := s.tickSamples + 1, loadable := false }

/-- One timer's decrement by 1, saturating at 0, when the tick is due (45_timers_input.md R230). -/
def countdown (due : Bool) (t : Byte) : Byte := if t = 0 then 0 else if due then t - 1 else t

/-- The timer tick of a step (45_timers_input.md R230). -/
def State.tick (s : State) (due : Bool) : State := (s.setDt (countdown due s.dt)).setSt (countdown due s.st)

/-- One byte of the fetch: read at `pc`, then `pc <- (pc + 1) mod 4096` (30_encoding.md R75). -/
def State.fetchByte (s : State) : Byte × State := (s.memRead s.pc.toNat, s.setPc (trunc16 ((s.pc.toNat + 1) % memSize)))

/-- `Fetch()`: two single-byte reads, big-endian (30_encoding.md R75). -/
def State.fetch (s : State) : Word × State :=
  let (hi, s₁) := s.fetchByte
  let (lo, s₂) := s₁.fetchByte
  (wordOfBytes hi lo, s₂)

/-- Store a word at `addr`, big-endian, each address modulo 4096 (20_memory.md R53). -/
def State.placeWord (s : State) (addr : Nat) (w : Word) : State :=
  (s.memWrite addr (w.extractLsb' 8 8)).memWrite (addr + 1) (w.extractLsb' 0 8)

/-! Free inputs. -/

/-- `draw rand_byte` (00_scope.md R15): the input, and the state in which it has been consumed. -/
def State.drawRand (s : State) : Byte × State := (Config.randByte s.randDraws, { s with randDraws := s.randDraws + 1 })

/-! The framebuffer. -/

/-- `fb[row][col]` (10_state.md R31). -/
def Framebuffer.pixel (f : Framebuffer) (row : Fin 32) (col : Fin 64) : Bool := f[row][col]

/-- `fb[row][col] <- not fb[row][col]`. -/
def Framebuffer.flip (f : Framebuffer) (row : Fin 32) (col : Fin 64) : Framebuffer :=
  f.set row.val (f[row].set col.val (!f[row][col]) col.isLt) row.isLt

/-- Every pixel off (44_display.md R201). -/
def Framebuffer.clear : Framebuffer := Vector.replicate 32 (Vector.replicate 64 false)

/-- One 1 bit of a sprite at (`px`, `py`): outside the grid nothing, inside it the pixel flips and an on pixel sets VF
(44_display.md R202). -/
def State.plot (s : State) (px py : Nat) : State :=
  if h : py < 32 ∧ px < 64 then
    let collided := if s.fb.pixel ⟨py, h.1⟩ ⟨px, h.2⟩ then s.setVF 1 else s
    collided.setFb (s.fb.flip ⟨py, h.1⟩ ⟨px, h.2⟩)
  else s

/-- One sprite byte at column `sx` of row `py`, bit 7 leftmost (44_display.md R200, R202). -/
def State.plotByte (s : State) (b : Byte) (sx py : Nat) : State :=
  (List.range 8).foldl (fun t c => if b.getLsbD (7 - c) then t.plot (sx + c) py else t) s

/-- `n` sprite rows from memory at `I`, the start at column `sx` of row `sy` (44_display.md R202). -/
def State.plotRows (s : State) (n sx sy : Nat) : State :=
  (List.range n).foldl (fun t r => t.plotByte (t.memRead (t.i.toNat + r)) sx (sy + r)) s

/-! Block transfers between registers and memory. -/

/-- `for k in 0 .. m-1: MemWrite(I + k, 1, V[k])`, in ascending `k` (43_index_memory.md R175). -/
def State.storeRegs (s : State) (m : Nat) : State :=
  (List.range m).foldl (fun t k => t.memWrite (t.i.toNat + k) (t.getV (Fin.ofNat 16 k))) s

/-- `for k in 0 .. m-1: V[k] <- MemRead(I + k, 1)`, in ascending `k` (43_index_memory.md R176). -/
def State.loadRegs (s : State) (m : Nat) : State :=
  (List.range m).foldl (fun t k => t.setV (Fin.ofNat 16 k) (t.memRead (t.i.toNat + k))) s

/-- Store the bytes of a list at ascending addresses from `addr` on (70_reset_and_hazards.md R291, R292). -/
def State.storeBytes (s : State) : Nat → List Byte → State
  | _, [] => s
  | addr, b :: rest => State.storeBytes (s.memWrite addr b) (addr + 1) rest

end Sys2Proof.Machine
end

