-- ==== Sys2Proof/Machine/Operands.lean ====
section
/-! DEFINITION. What an instruction's operands name: extended immediates, the source of a shift, the base register of the
offset jump, the scanned key, the glyph address, the decimal digits, and how far `I` advances. -/

namespace Sys2Proof.Machine

/-- `zext_16(nnn)` (30_encoding.md R72). -/
def zext16 (nnn : Addr) : Word := nnn.setWidth 16

/-- The field `x = nnn[11:8]` of a Bnnn word (41_control_flow.md R108). -/
def offsetJumpReg (nnn : Addr) : Reg := nibbleNum (nnn.extractLsb' 8 4)

/-- The base of the offset jump: `V[x]` when `JUMP_USES_X`, else `V0` (41_control_flow.md R108). -/
def State.offsetJumpBase (s : State) (nnn : Addr) : Byte :=
  if s.params.jumpUsesX then s.getV (offsetJumpReg nnn) else s.getV 0

/-- `zext_16(base) + zext_16(nnn)`, not reduced (41_control_flow.md R108). -/
def offsetJumpTarget (base : Byte) (nnn : Addr) : Word := trunc16 (base.toNat + nnn.toNat)

/-- `if SHIFT_USES_Y: V[x] <- V[y]`, the first write of a shift (42_alu.md R139, R141). -/
def State.copyForShift (s : State) (x y : Reg) : State := if s.params.shiftUsesY then s.setV x (s.getV y) else s

/-- `key[V[x]]` as a key index: `none` when `V[x] > 15` (45_timers_input.md R234). -/
def State.keyAt? (s : State) (x : Reg) : Option Bool :=
  if h : (s.getV x).toNat < 16 then some s.key[(s.getV x).toNat] else none

/-- The least held key, `KEY_SCAN_ORDER` ascending (45_timers_input.md R236). -/
def State.leastHeldKey? (s : State) : Option (Fin 16) := (List.finRange 16).find? fun k => s.key[k]

/-- `0x000 + 5 * (V[x] & 0xF)`: the address of a glyph (43_index_memory.md R173). -/
def glyphAddr (b : Byte) : Word := trunc16 (5 * (b.toNat % 16))

/-- `v div 100` (43_index_memory.md R174). -/
def hundreds (b : Byte) : Byte := trunc8 (b.toNat / 100)

/-- `(v div 10) mod 10` (43_index_memory.md R174). -/
def tens (b : Byte) : Byte := trunc8 (b.toNat / 10 % 10)

/-- `v mod 10` (43_index_memory.md R174). -/
def units (b : Byte) : Byte := trunc8 (b.toNat % 10)

/-- `inc(x)` under `LOADSTORE_I_MODE` (43_index_memory.md R177). -/
def indexInc (m : LoadStoreIMode) (x : Reg) : Nat :=
  match m with
  | .unchanged => 0
  | .plusX => x.val
  | .plusXPlus1 => x.val + 1

/-- `I <- I + inc(x)`, not reduced (43_index_memory.md R177). An exact sum past 16 bits does not fit the register and the
spec states no value for it: a free value (log entry 10, DESIGN CHOICE, safe). -/
def State.advanceI (s : State) (x : Reg) : State :=
  let sum := s.i.toNat + indexInc s.params.loadStoreIMode x
  s.setI (if sum < 65536 then trunc16 sum else Config.indexPast16 sum)

end Sys2Proof.Machine
end

