-- ==== Sys2Proof/Machine/Flags.lean ====
section
/-! DEFINITION. The results and flag values of the arithmetic instructions: computed exactly, then narrowed
(42_alu.md R130; 00_scope.md R12). VF is the block's only flag (10_state.md R39). -/

namespace Sys2Proof.Machine

/-- `trunc8(a + b)` (42_alu.md R132, R137). -/
def addResult (a b : Byte) : Byte := trunc8 (a.toNat + b.toNat)

/-- VF of an add: 1 when the exact sum exceeds 0xFF (42_alu.md R137). -/
def carryFlag (a b : Byte) : Byte := if a.toNat + b.toNat > 0xFF then 1 else 0

/-- `trunc8(a + 256 - b)` (42_alu.md R138, R140). -/
def subResult (a b : Byte) : Byte := trunc8 (a.toNat + 256 - b.toNat)

/-- VF of a subtract: 0 when a borrow occurred, else 1 (42_alu.md R138, R140). -/
def noBorrowFlag (a b : Byte) : Byte := if a.toNat < b.toNat then 0 else 1

/-- VF of a right shift: bit 0 of the value shifted (42_alu.md R139). -/
def shrFlag (b : Byte) : Byte := b &&& 1

/-- `V[x] >> 1`, logical (42_alu.md R139). -/
def shrResult (b : Byte) : Byte := b >>> 1

/-- VF of a left shift: bit 7 of the value shifted (42_alu.md R141). -/
def shlFlag (b : Byte) : Byte := (b >>> 7) &&& 1

/-- `trunc8(V[x] << 1)` (42_alu.md R141). -/
def shlResult (b : Byte) : Byte := b <<< 1

/-- The exact sum of Fx1E passes 0xFFF (43_index_memory.md R171). -/
def indexOverflows (i : Word) (b : Byte) : Bool := decide (i.toNat + b.toNat > 0xFFF)

/-- The new `I` of Fx1E: the exact sum, less 0x1000 when it passes 0xFFF (43_index_memory.md R171). -/
def indexSum (i : Word) (b : Byte) : Word :=
  if indexOverflows i b then trunc16 (i.toNat + b.toNat - 0x1000) else trunc16 (i.toNat + b.toNat)

end Sys2Proof.Machine
end

