-- ==== Sys2Proof/Machine/Alu.lean ====
section
/-! DEFINITION. The register file and ALU (42_alu.md): set, add, logic, subtract, shift, random. The order of the writes is
R130's: 8xy4, 8xy5 and 8xy7 write the result and then VF; 8xy6 and 8xyE write VF and then shift `V[x]` in place. -/

namespace Sys2Proof.Machine

/-- 6xnn LD Vx, nn (42_alu.md R131). -/
def execLdImm (x : Reg) (nn : Byte) (s : State) : Host.Outcome State Fault Refusal := .next (s.setV x nn)

/-- 7xnn ADD Vx, nn: no flag (42_alu.md R132). -/
def execAddImm (x : Reg) (nn : Byte) (s : State) : Host.Outcome State Fault Refusal :=
  .next (s.setV x (addResult (s.getV x) nn))

/-- 8xy0 LD Vx, Vy (42_alu.md R133). -/
def execLdReg (x y : Reg) (s : State) : Host.Outcome State Fault Refusal := .next (s.setV x (s.getV y))

/-- 8xy1 OR Vx, Vy (42_alu.md R134). -/
def execOrReg (x y : Reg) (s : State) : Host.Outcome State Fault Refusal := .next (s.setV x (s.getV x ||| s.getV y))

/-- 8xy2 AND Vx, Vy (42_alu.md R135). -/
def execAndReg (x y : Reg) (s : State) : Host.Outcome State Fault Refusal := .next (s.setV x (s.getV x &&& s.getV y))

/-- 8xy3 XOR Vx, Vy (42_alu.md R136). -/
def execXorReg (x y : Reg) (s : State) : Host.Outcome State Fault Refusal := .next (s.setV x (s.getV x ^^^ s.getV y))

/-- 8xy4 ADD Vx, Vy: the flag is written last (42_alu.md R137). -/
def execAddReg (x y : Reg) (s : State) : Host.Outcome State Fault Refusal :=
  .next ((s.setV x (addResult (s.getV x) (s.getV y))).setVF (carryFlag (s.getV x) (s.getV y)))

/-- 8xy5 SUB Vx, Vy: the flag is written last (42_alu.md R138). -/
def execSubReg (x y : Reg) (s : State) : Host.Outcome State Fault Refusal :=
  .next ((s.setV x (subResult (s.getV x) (s.getV y))).setVF (noBorrowFlag (s.getV x) (s.getV y)))

/-- 8xy7 SUBN Vx, Vy: the flag is written last (42_alu.md R140). -/
def execSubnReg (x y : Reg) (s : State) : Host.Outcome State Fault Refusal :=
  .next ((s.setV x (subResult (s.getV y) (s.getV x))).setVF (noBorrowFlag (s.getV y) (s.getV x)))

/-- 8xy6 SHR Vx, Vy: the copy, then the flag, then the shift in place, which reads `V[x]` again (42_alu.md R139). -/
def execShr (x y : Reg) (s : State) : Host.Outcome State Fault Refusal :=
  let s₁ := s.copyForShift x y
  let s₂ := s₁.setVF (shrFlag (s₁.getV x))
  .next (s₂.setV x (shrResult (s₂.getV x)))

/-- 8xyE SHL Vx, Vy: the copy, then the flag, then the shift in place, which reads `V[x]` again (42_alu.md R141). -/
def execShl (x y : Reg) (s : State) : Host.Outcome State Fault Refusal :=
  let s₁ := s.copyForShift x y
  let s₂ := s₁.setVF (shlFlag (s₁.getV x))
  .next (s₂.setV x (shlResult (s₂.getV x)))

/-- Cxnn RND Vx, nn: `rand_byte` is a free value (42_alu.md R142; log entry 2). -/
def execRnd (x : Reg) (nn : Byte) (s : State) : Host.Outcome State Fault Refusal :=
  let (r, s₁) := s.drawRand
  .next (s₁.setV x (r &&& nn))

end Sys2Proof.Machine
end

