-- ==== Sys2Proof/Machine/ControlFlow.lean ====
section
/-! DEFINITION. Control transfer (41_control_flow.md): RET, JP, CALL, the conditional skips, the offset jump. Every meaning
sees `pc` already advanced by the fetch. -/

namespace Sys2Proof.Machine

/-- 00EE RET (41_control_flow.md R103; the fault: 60_exceptions.md R261). -/
def execRet (s : State) : Host.Outcome State Fault Refusal :=
  match s.stack.getLast? with
  | none => .next (s.raiseFault .stackUnderflow)
  | some w => .next ((s.setStack s.stack.dropLast).setPc w)

/-- 1nnn JP nnn (41_control_flow.md R101). -/
def execJp (nnn : Addr) (s : State) : Host.Outcome State Fault Refusal := .next (s.setPc (zext16 nnn))

/-- 2nnn CALL nnn (41_control_flow.md R102; the fault: 60_exceptions.md R263). -/
def execCall (nnn : Addr) (s : State) : Host.Outcome State Fault Refusal :=
  if s.params.stackDepth = some s.stack.length then .next (s.raiseFault .stackOverflow)
  else .next ((s.push s.pc).setPc (zext16 nnn))

/-- 3xnn SE Vx, nn (41_control_flow.md R104). -/
def execSeImm (x : Reg) (nn : Byte) (s : State) : Host.Outcome State Fault Refusal := .next (s.skipIf (s.getV x == nn))

/-- 4xnn SNE Vx, nn (41_control_flow.md R105). -/
def execSneImm (x : Reg) (nn : Byte) (s : State) : Host.Outcome State Fault Refusal := .next (s.skipIf (s.getV x != nn))

/-- 5xy0 SE Vx, Vy (41_control_flow.md R106). -/
def execSeReg (x y : Reg) (s : State) : Host.Outcome State Fault Refusal := .next (s.skipIf (s.getV x == s.getV y))

/-- 9xy0 SNE Vx, Vy (41_control_flow.md R107). -/
def execSneReg (x y : Reg) (s : State) : Host.Outcome State Fault Refusal := .next (s.skipIf (s.getV x != s.getV y))

/-- Bnnn JP V0, nnn (41_control_flow.md R108). -/
def execJpV0 (nnn : Addr) (s : State) : Host.Outcome State Fault Refusal :=
  .next (s.setPc (offsetJumpTarget (s.offsetJumpBase nnn) nnn))

end Sys2Proof.Machine
end

