-- ==== Sys2Proof/Machine/Display.lean ====
section
/-! DEFINITION. The framebuffer pixel-write controller (44_display.md): CLS and DRW. -/

namespace Sys2Proof.Machine

/-- 00E0 CLS (44_display.md R201). -/
def execCls (s : State) : Host.Outcome State Fault Refusal := .next ((s.setFb Framebuffer.clear).setRedraw true)

/-- Dxyn DRW Vx, Vy, n: the coordinates are read before VF is cleared; the start wraps, each pixel clips
(44_display.md R202). -/
def execDrw (x y : Reg) (n : Fin 16) (s : State) : Host.Outcome State Fault Refusal :=
  .next (((s.setVF 0).plotRows n.val ((s.getV x).toNat % 64) ((s.getV y).toNat % 32)).setRedraw true)

end Sys2Proof.Machine
end

