-- ==== Sys2Proof/Machine/IndexMemory.lean ====
section
/-! DEFINITION. The index register and memory transfers (43_index_memory.md). Fx29, Fx33, Fx55 and Fx65 have a meaning
under `FX_MEMORY_OPS = conventional` and are refused under `refuse` (R172). -/

namespace Sys2Proof.Machine

/-- Annn LD I, nnn (43_index_memory.md R170). -/
def execLdI (nnn : Addr) (s : State) : Host.Outcome State Fault Refusal := .next (s.setI (zext16 nnn))

/-- Fx1E ADD I, Vx: VF is written only on overflow, and only with 1; the addend is read first (43_index_memory.md R171). -/
def execAddI (x : Reg) (s : State) : Host.Outcome State Fault Refusal :=
  let flagged := if indexOverflows s.i (s.getV x) then s.setVF 1 else s
  .next (flagged.setI (indexSum s.i (s.getV x)))

/-- What R172 says of the four memory operations: their effect under `conventional`, a refusal under `refuse`. -/
def State.ifConventional (s : State) (t : State) : Host.Outcome State Fault Refusal :=
  match s.params.fxMemoryOps with
  | .conventional => .next t
  | .refuse => .refused .fxMemoryOps

/-- Fx29 LD F, Vx (43_index_memory.md R173). -/
def execLdF (x : Reg) (s : State) : Host.Outcome State Fault Refusal :=
  s.ifConventional (s.setI (glyphAddr (s.getV x)))

/-- Fx33 LD B, Vx: three byte stores at `I`, `I + 1`, `I + 2` (43_index_memory.md R174). -/
def execLdB (x : Reg) (s : State) : Host.Outcome State Fault Refusal :=
  s.ifConventional (s.storeBytes s.i.toNat [hundreds (s.getV x), tens (s.getV x), units (s.getV x)])

/-- Fx55 LD [I], Vx: x + 1 byte stores, then `I` advances (43_index_memory.md R175, R177). -/
def execStRegs (x : Reg) (s : State) : Host.Outcome State Fault Refusal :=
  s.ifConventional ((s.storeRegs (x.val + 1)).advanceI x)

/-- Fx65 LD Vx, [I]: x + 1 byte loads, then `I` advances (43_index_memory.md R176, R177). -/
def execLdRegs (x : Reg) (s : State) : Host.Outcome State Fault Refusal :=
  s.ifConventional ((s.loadRegs (x.val + 1)).advanceI x)

end Sys2Proof.Machine
end

