-- ==== Sys2Proof/Machine/TimersInput.lean ====
section
/-! DEFINITION. Timer transfers and key input (45_timers_input.md R231 to R236). -/

namespace Sys2Proof.Machine

/-- Fx07 LD Vx, DT (45_timers_input.md R231). -/
def execLdVxDt (x : Reg) (s : State) : Host.Outcome State Fault Refusal := .next (s.setV x s.dt)

/-- Fx15 LD DT, Vx (45_timers_input.md R232). -/
def execLdDtVx (x : Reg) (s : State) : Host.Outcome State Fault Refusal := .next (s.setDt (s.getV x))

/-- Fx18 LD ST, Vx (45_timers_input.md R233). -/
def execLdStVx (x : Reg) (s : State) : Host.Outcome State Fault Refusal := .next (s.setSt (s.getV x))

/-- Ex9E SKP Vx (45_timers_input.md R234; the fault: 60_exceptions.md R262). -/
def execSkp (x : Reg) (s : State) : Host.Outcome State Fault Refusal :=
  match s.keyAt? x with
  | none => .next (s.raiseFault .keyIndexOutOfRange)
  | some held => .next (s.skipIf held)

/-- ExA1 SKNP Vx (45_timers_input.md R235; the fault: 60_exceptions.md R262). -/
def execSknp (x : Reg) (s : State) : Host.Outcome State Fault Refusal :=
  match s.keyAt? x with
  | none => .next (s.raiseFault .keyIndexOutOfRange)
  | some held => .next (s.skipIf !held)

/-- Fx0A LD Vx, K: the least held key, or the rewind that fetches the word again (45_timers_input.md R236). -/
def execLdVxK (x : Reg) (s : State) : Host.Outcome State Fault Refusal :=
  match s.leastHeldKey? with
  | some k => .next (s.setV x (trunc8 k.val))
  | none => .next s.rewind

end Sys2Proof.Machine
end

