-- ==== Sys2Proof/Machine/Unknown.lean ====
section
/-! DEFINITION. The unknown instruction (30_encoding.md R78, R79; 60_exceptions.md R264). -/

namespace Sys2Proof.Machine

/-- Any word that selects no row: the report and nothing else (30_encoding.md R78). -/
def execUnknown (w : Word) (s : State) : Host.Outcome State Fault Refusal := .next (s.report w)

end Sys2Proof.Machine
end

