-- ==== Sys2Proof/Machine/Step.lean ====
section
/-! DEFINITION. One `execute` of the block (30_encoding.md R74): fetch, decode, tick, handler; no step once halted
(60_exceptions.md R266). -/

namespace Sys2Proof.Machine

/-- One `execute` with the step input `tick_due = due` (30_encoding.md R74). -/
def stepWith (due : Bool) (s : State) : Host.Outcome State Fault Refusal :=
  match s.halted with
  | true => .fault .halted
  | false => exec (decode s.beginStep.fetch.1) (s.beginStep.fetch.2.tick due)

/-- One `execute`; its `tick_due` is the free input of this step (45_timers_input.md R230; log entry 1). -/
def step (s : State) : Host.Outcome State Fault Refusal := stepWith (Config.tickDue s.tickSamples) s

/-- The state with an instruction word of bits `w` stored where the next fetch reads it; bits at or above `nbits` are 0. -/
def State.withFetchWord (s : State) (nbits w : Nat) : State :=
  s.placeWord s.pc.toNat (BitVec.ofNat 16 (w % 2 ^ nbits))

end Sys2Proof.Machine
end

