-- ==== Sys2Proof/Machine/HostOps.lean ====
section
/-! DEFINITION. The host's side of the interface (00_scope.md R9): construction, `load_program`, key events, the redraw
query, the read ports, and one host operation between steps. -/

namespace Sys2Proof.Machine

/-- Construction with its arguments and parameters and an 80-byte `FONT` (70_reset_and_hazards.md R290, R291). -/
def State.construct (p : Params) (font : Vector Byte 80) : State :=
  { State.reset with params := p }.storeBytes 0 font.toList

/-- `LOAD_ADDR` (00_scope.md R10). -/
def loadAddr : Nat := 0x200

/-- The longest image `load_program` takes (70_reset_and_hazards.md R292). -/
def maxImage : Nat := memSize - loadAddr

/-- `load_program(bytes)`: once, before the first `execute`, at most 3584 bytes; otherwise no move
(70_reset_and_hazards.md R292; log entry 13). -/
def State.loadProgram (s : State) (bytes : List Byte) : Host.Outcome State Fault Refusal :=
  if s.loadable ∧ bytes.length ≤ maxImage then .next { s.storeBytes loadAddr bytes with loadable := false }
  else .refused .loadProgram

/-- `key_down(k)` (45_timers_input.md R237). -/
def State.keyDown (s : State) (k : Fin 16) : State := s.setKey k true

/-- `key_up(k)` (45_timers_input.md R237). -/
def State.keyUp (s : State) (k : Fin 16) : State := s.setKey k false

/-- `redraw_query()`: the flag it returns, and the state with the flag cleared (44_display.md R203). -/
def State.redrawQuery (s : State) : Bool × State := (s.redraw, s.setRedraw false)

/-- The output `sound_timer` (45_timers_input.md R238). -/
def State.soundTimer (s : State) : Byte := s.st

/-- The framebuffer read port (44_display.md R204). -/
def State.readPixel (s : State) (row : Fin 32) (col : Fin 64) : Bool := s.fb.pixel row col

/-- One operation of the host (00_scope.md R9). -/
inductive HostOp where
  | execute
  | keyDown (k : Fin 16)
  | keyUp (k : Fin 16)
  | loadProgram (bytes : List Byte)
  | redrawQuery
deriving DecidableEq, Repr

/-- What one host operation does to the block; `redraw_query`'s returned flag is `State.redrawQuery`'s first part. -/
def perform (op : HostOp) (s : State) : Host.Outcome State Fault Refusal :=
  match op with
  | .execute => step s
  | .keyDown k => .next (s.keyDown k)
  | .keyUp k => .next (s.keyUp k)
  | .loadProgram bytes => s.loadProgram bytes
  | .redrawQuery => .next s.redrawQuery.2

end Sys2Proof.Machine
end

