-- ==== Sys2Proof/Machine/Run.lean ====
section
/-! DEFINITION. Runs of the block: host operations one after another, the boundaries between steps, and the end of a run
(70_reset_and_hazards.md R303; log entry 19). -/

namespace Sys2Proof.Machine

/-- The word the next fetch will read (30_encoding.md R75). -/
def State.nextWord (s : State) : Word := s.fetch.1

/-- The two conditions of an idle end: not halted, and the word at `pc` is a jump to `pc mod 4096` (R303 (b)). -/
abbrev State.idleEnd (s : State) : Prop :=
  s.halted = false ∧ decode s.nextWord = .jp (BitVec.ofNat 12 (s.pc.toNat % memSize))

/-- How many steps a host operation performs: only `execute` is a step (00_scope.md R19). -/
def HostOp.steps (op : HostOp) : Nat :=
  match op with
  | .execute => 1
  | .keyDown _ => 0
  | .keyUp _ => 0
  | .loadProgram _ => 0
  | .redrawQuery => 0

/-- How many steps a list of host operations performs. -/
def stepCount : List HostOp → Nat
  | [] => 0
  | op :: rest => op.steps + stepCount rest

/-- Host operations one after another, up to the first that has no next state. -/
def runOps : List HostOp → State → Host.Outcome State Fault Refusal
  | [], s => .next s
  | op :: rest, s =>
    match perform op s with
    | .next t => runOps rest t
    | .fault f => .fault f
    | .refused r => .refused r

/-- `n` steps with no host event between them. -/
def runSteps (n : Nat) (s : State) : Host.Outcome State Fault Refusal := runOps (List.replicate n .execute) s

/-- The two ways a claim defines the end of a run (R303). -/
inductive RunEnd where
  /-- (a) The run ends after `n` steps, the count the claim names. -/
  | bounded (n : Nat)
  /-- (b) The run ends at the first step boundary that is idle. -/
  | idle
deriving DecidableEq, Repr

/-- What a step boundary is for a run. -/
inductive EndStatus where
  /-- The run has not ended. -/
  | notYet
  /-- The run has reached the end its claim defines. -/
  | good
  /-- A halted state: an end, but never a good end. -/
  | halted
deriving DecidableEq, Repr

/-- Whether the boundary after `steps` steps, in state `s`, ends the run; a halted state is looked for first, since it is
never a good end (R303). -/
def RunEnd.status (e : RunEnd) (steps : Nat) (s : State) : EndStatus :=
  if s.halted then .halted
  else
    match e with
    | .bounded n => if n ≤ steps then .good else .notYet
    | .idle => if s.idleEnd then .good else .notYet

/-- How a run comes out. -/
inductive RunResult where
  /-- The end the claim defines. -/
  | goodEnd (s : State)
  /-- A halted state, which is an end and not a good one. -/
  | haltedEnd (s : State)
  /-- The host has stopped calling before any end (log entry 19). -/
  | unfinished (s : State)
  /-- The next host operation is refused in `s`. -/
  | refused (s : State) (r : Refusal)
deriving DecidableEq, Repr

/-- A run that has performed `steps` steps: it stops at the first boundary that ends it, and otherwise performs the next
host operation (R303). -/
def runFrom (e : RunEnd) (steps : Nat) : List HostOp → State → RunResult
  | [], s =>
    match e.status steps s with
    | .good => .goodEnd s
    | .halted => .haltedEnd s
    | .notYet => .unfinished s
  | op :: rest, s =>
    match e.status steps s with
    | .good => .goodEnd s
    | .halted => .haltedEnd s
    | .notYet =>
      match perform op s with
      | .next t => runFrom e (steps + op.steps) rest t
      | .fault .halted => .haltedEnd s
      | .refused r => .refused s r

/-- The run of a booted block under the host operations `ops` (R293, R303). -/
def run (e : RunEnd) (ops : List HostOp) (s : State) : RunResult := runFrom e 0 ops s

end Sys2Proof.Machine
end

