-- ==== Sys2Proof/Safety.lean ====
section
/-! DEFINITION. What claims are stated in: the invariant of the block, the states the host can drive it to, and the
specification functions of the statements. -/

namespace Sys2Proof.Machine

/-- The values `pc` takes between steps: at most 0x10FE (an offset jump, 10_state.md R25), or 0xFFFE or 0xFFFF (the rewind
of 45_timers_input.md R236; log entry 12). -/
def pcReachable (pc : Word) : Prop := pc.toNat ≤ 0x10FE ∨ 0xFFFE ≤ pc.toNat

/-- The invariant of the block: memory is in canonical form; every return address is a 12-bit address (10_state.md R27);
the stack is within a finite `STACK_DEPTH` (60_exceptions.md R263); `halted` and `fault_cause` agree (10_state.md R37);
`pc` is one of the values a step leaves; `I` stays a 12-bit address unless Fx55 and Fx65 advance it (10_state.md R26). -/
structure State.Inv (s : State) : Prop where
  memWf : Memory.wf s.mem = true
  stackAddrs : ∀ w ∈ s.stack, w.toNat ≤ 0xFFF
  stackFits : ∀ d, s.params.stackDepth = some d → s.stack.length ≤ d
  haltCause : s.halted = s.faultCause.isSome
  pcRange : pcReachable s.pc
  indexRange : s.params.loadStoreIMode = .unchanged → s.i.toNat ≤ 0xFFF

/-- A state the host can drive the block to from some construction (70_reset_and_hazards.md R293). -/
inductive Reachable : State → Prop where
  | construct (p : Params) (font : Vector Byte 80) : Reachable (State.construct p font)
  | perform (op : HostOp) (s t : State) : Reachable s → perform op s = .next t → Reachable t

/-- The pixel (`row`, `col`) is under a 1 bit of the sprite that DRW Vx, Vy, n would draw in `s`: the start is
(`V[x] mod 64`, `V[y] mod 32`), sprite row `k` is the byte at `I + k`, bit 7 leftmost (44_display.md R200, R202). -/
def spriteHit (s : State) (x y : Reg) (n : Fin 16) (row : Fin 32) (col : Fin 64) : Bool :=
  let sx := (s.getV x).toNat % 64
  let sy := (s.getV y).toNat % 32
  decide (sy ≤ row.val) && decide (row.val < sy + n.val) && decide (sx ≤ col.val) && decide (col.val < sx + 8) &&
    (s.memRead (s.i.toNat + (row.val - sy))).getLsbD (7 - (col.val - sx))

/-- `inc(x)` as the table of 43_index_memory.md R177 gives it. -/
def tableInc (m : LoadStoreIMode) (x : Nat) : Nat :=
  match m with
  | .unchanged => 0
  | .plusX => x
  | .plusXPlus1 => x + 1

end Sys2Proof.Machine
end

