-- ==== Sys2Proof/Certificates/Slice0/Obligations.lean ====
section
/-! DEFINITION. The statements for the provers, one definition each; OBLIGATIONS.json lists them. `exec` runs a handler on
the state after the fetch and the tick; `step` is a whole `execute`. An equation `exec i s = .next { s with … }` says that
the instruction completes, what it writes, and that it leaves every other field, all of memory included, as it was. -/

open Sys2Proof Sys2Proof.Machine

/-! Encoding. -/

/-- Words written out from the encoding column of 30_encoding.md R76 decode to what they stand for, and words that select no
row are unknown (R77, R78, R79). -/
def Obligations.SampleWordsDecode : Prop :=
  decode 0x00E0 = .cls ∧ decode 0x2400 = .call 0x400 ∧ decode 0x3142 = .seImm 1 0x42 ∧ decode 0x8AB6 = .shr 10 11 ∧
  decode 0xB300 = .jpV0 0x300 ∧ decode 0xD012 = .drw 0 1 2 ∧ decode 0xE19E = .skp 1 ∧ decode 0xF265 = .ldRegs 2 ∧
  decode 0x0123 = .unknown 0x0123 ∧ decode 0x01E0 = .unknown 0x01E0 ∧ decode 0x5121 = .unknown 0x5121 ∧
  decodeBytes [0xA2, 0x34] = .ok (.ldI 0x234, [])

/-- Decoding the two bytes of an encoded instruction gives the instruction back, with every operand at every value, and
leaves the bytes after it (R70, R71, R76; 20_memory.md R53). -/
def Obligations.DecodeOfEncodeIsIdentity : Prop :=
  ∀ (i : Instr) (rest : List Byte), i.wellFormed = true →
    decodeBytes (wordBytes (encode i) ++ rest) = .ok (i, rest)

/-- Every word has one meaning: decoding gives a well-formed instruction whose encoding is the word (R71, R80). -/
def Obligations.EncodeOfDecodeIsIdentity : Prop :=
  ∀ w : Word, (decode w).wellFormed = true ∧ encode (decode w) = w

/-- "No two rows match the same word" (R76). -/
def Obligations.NoWordSelectsTwoRows : Prop :=
  ∀ (w : Word) (r r' : OpcodeRow), r ∈ opcodeRows → r' ∈ opcodeRows → r.selects w = true → r'.selects w = true → r = r'

/-- The unknown words are exactly those of R78's table (R77 is the spec's decision D4, R79 its decision D5). -/
def Obligations.UnknownWordsAreThoseListed : Prop :=
  ∀ w : Word, decode w = .unknown w ↔
    let c := w.toNat / 0x1000
    let n := w.toNat % 0x10
    let nn := w.toNat % 0x100
    (c = 0x0 ∧ w.toNat ≠ 0x00E0 ∧ w.toNat ≠ 0x00EE) ∨
    (c = 0x5 ∧ n ≠ 0) ∨
    (c = 0x8 ∧ n ∈ [0x8, 0x9, 0xA, 0xB, 0xC, 0xD, 0xF]) ∨
    (c = 0x9 ∧ n ≠ 0) ∨
    (c = 0xE ∧ nn ∉ [0x9E, 0xA1]) ∨
    (c = 0xF ∧ nn ∉ [0x07, 0x0A, 0x15, 0x18, 0x1E, 0x29, 0x33, 0x55, 0x65])

/-! The step. -/

/-- A step of a running block is the handler of the instruction that the two bytes at `pc` and `pc + 1` (modulo 4096) decode
to, on the state in which `pc` has advanced by 2 modulo 4096, the timers have ticked if the tick is due, and the model's
own fields have moved on (R74, R75; log entries 1, 8 and 13: the free input and the model's own fields are the model's
choice). -/
def Obligations.StepRunsTheDecodedInstruction : Prop :=
  ∀ (s : State) (i : Instr), s.halted = false → i.wellFormed = true →
    decodeBytes [s.memRead s.pc.toNat, s.memRead (s.pc.toNat + 1)] = .ok (i, []) →
    step s = exec i { s with
      pc := BitVec.ofNat 16 ((s.pc.toNat + 2) % 4096)
      dt := if Config.tickDue s.tickSamples = true ∧ s.dt ≠ 0 then s.dt - 1 else s.dt
      st := if Config.tickDue s.tickSamples = true ∧ s.st ≠ 0 then s.st - 1 else s.st
      unknownReport := none
      tickSamples := s.tickSamples + 1
      loadable := false }

/-- A halted block has no step, and the host may still query the redraw flag and set keys, which does not resume it
(60_exceptions.md R266, decision D20; that a missing step is the fault `halted` is the model's choice, log entry 9). -/
def Obligations.HaltedBlockHasNoStep : Prop :=
  ∀ s : State, s.halted = true →
    step s = .fault .halted ∧
    ∀ (op : HostOp) (t : State), perform op s = .next t →
      op ≠ .execute ∧ t.halted = true ∧ t.faultCause = s.faultCause ∧ t.pc = s.pc ∧ t.v = s.v

/-- The three outcomes of a step: it answers, or the block is halted, or `FX_MEMORY_OPS = refuse` and the word is one of
the four memory operations (60_exceptions.md R260, R265; 43_index_memory.md R172). -/
def Obligations.StepAnswersUnlessHaltedOrRefused : Prop :=
  ∀ s : State,
    (∃ t, step s = .next t) ∨
    (s.halted = true ∧ step s = .fault .halted) ∨
    (s.halted = false ∧ s.params.fxMemoryOps = .refuse ∧ step s = .refused .fxMemoryOps ∧
      ∃ x, decode s.nextWord = .ldF x ∨ decode s.nextWord = .ldB x ∨ decode s.nextWord = .stRegs x ∨
        decode s.nextWord = .ldRegs x)

/-- A step lowers each timer by exactly 1, not below 0, when its tick is due, and otherwise leaves it, unless the step's
instruction writes that timer (45_timers_input.md R230; `tick_due` is a free input, log entry 1). -/
def Obligations.TickLowersEachTimerOncePerStep : Prop :=
  ∀ s t : State, step s = .next t →
    ((∀ x, decode s.nextWord ≠ .ldDtVx x) →
      t.dt.toNat = if Config.tickDue s.tickSamples = true then s.dt.toNat - 1 else s.dt.toNat) ∧
    ((∀ x, decode s.nextWord ≠ .ldStVx x) →
      t.st.toNat = if Config.tickDue s.tickSamples = true then s.st.toNat - 1 else s.st.toNat)

/-- LD Vx, DT reads the timer after its own step's tick; LD DT, Vx and LD ST, Vx write after it, so the value written is
not lowered in that step (45_timers_input.md R231 to R233; 70_reset_and_hazards.md R296). -/
def Obligations.TimerTransfersFollowTheTick : Prop :=
  ∀ (due : Bool) (s t : State) (x : Reg), stepWith due s = .next t →
    (decode s.nextWord = .ldVxDt x →
      (t.getV x).toNat = (if due = true then s.dt.toNat - 1 else s.dt.toNat) ∧ t.getV x = t.dt) ∧
    (decode s.nextWord = .ldDtVx x → t.dt = s.getV x) ∧
    (decode s.nextWord = .ldStVx x → t.st = s.getV x)

/-- A word that selects no row: the step advances `pc`, ticks and reports the word, and changes nothing else, and the run
goes on (30_encoding.md R78; 60_exceptions.md R264; the report is held in a field of the model's, log entry 8). -/
def Obligations.UnknownWordIsOnlyReported : Prop :=
  (∀ (w : Word) (s : State), exec (.unknown w) s = .next { s with unknownReport := some w }) ∧
  ∀ s : State, s.halted = false → selectsNoRow s.nextWord = true →
    ∃ t, step s = .next t ∧ t.unknownReport = some s.nextWord ∧ t.pc.toNat = (s.pc.toNat + 2) % 4096 ∧
      t = { s with pc := t.pc, dt := t.dt, st := t.st, unknownReport := t.unknownReport,
                   tickSamples := s.tickSamples + 1, loadable := false }

/-! Control flow. -/

/-- JP nnn (41_control_flow.md R101). -/
def Obligations.JumpLoadsItsTarget : Prop :=
  ∀ nnn : Addr, decode (0x1#4 ++ nnn) = .jp nnn ∧ ∀ s : State, exec (.jp nnn) s = .next { s with pc := nnn.setWidth 16 }

/-- CALL nnn pushes the post-fetch `pc` and jumps, with the unbounded stack or a finite one that is not full
(41_control_flow.md R102; the finite depth is decision D17). -/
def Obligations.CallPushesTheReturnAddress : Prop :=
  ∀ nnn : Addr, decode (0x2#4 ++ nnn) = .call nnn ∧
    ∀ s : State, (∀ d, s.params.stackDepth = some d → s.stack.length ≠ d) →
      exec (.call nnn) s = .next { s with stack := s.stack ++ [s.pc], pc := nnn.setWidth 16 }

/-- CALL with a full finite stack halts the block: no push and no jump (60_exceptions.md R263, decision D17). -/
def Obligations.CallFaultsOnAFullStack : Prop :=
  ∀ (nnn : Addr) (s : State), s.params.stackDepth = some s.stack.length →
    exec (.call nnn) s = .next { s with halted := true, faultCause := some .stackOverflow }

/-- RET pops the top of the stack into `pc`; with an empty stack it halts the block and writes nothing else
(41_control_flow.md R103; 60_exceptions.md R261). -/
def Obligations.ReturnPopsOrFaults : Prop :=
  decode 0x00EE = .ret ∧
  (∀ (s : State) (rest : List Word) (top : Word), s.stack = rest ++ [top] →
    exec .ret s = .next { s with stack := rest, pc := top }) ∧
  (∀ s : State, s.stack = [] → exec .ret s = .next { s with halted := true, faultCause := some .stackUnderflow })

/-- A return, run in any state whose stack is the one a call left, goes back to the value `pc` held right after the call
was fetched, and to the stack before the call (41_control_flow.md R103). -/
def Obligations.ReturnUndoesCall : Prop :=
  ∀ (s t u : State) (nnn : Addr), exec (.call nnn) s = .next t → t.halted = s.halted → s.halted = false →
    u.stack = t.stack → exec .ret u = .next { u with pc := s.pc, stack := s.stack }

/-- The four register skips: `pc + 2` more when the condition holds, nothing otherwise; no register is written
(41_control_flow.md R100, R104 to R107; the sum's 16-bit reduction is decision D14). -/
def Obligations.RegisterSkips : Prop :=
  ∀ (x y : Reg) (nn : Byte) (s : State),
    exec (.seImm x nn) s = .next { s with pc := if s.getV x = nn then s.pc + 2 else s.pc } ∧
    exec (.sneImm x nn) s = .next { s with pc := if s.getV x = nn then s.pc else s.pc + 2 } ∧
    exec (.seReg x y) s = .next { s with pc := if s.getV x = s.getV y then s.pc + 2 else s.pc } ∧
    exec (.sneReg x y) s = .next { s with pc := if s.getV x = s.getV y then s.pc else s.pc + 2 }

/-- JP V0, nnn: the base is `V[nnn[11:8]]` with `JUMP_USES_X` and V0 without; the offset is the full `nnn`; the sum, at most
0x10FE, is not reduced (41_control_flow.md R108). -/
def Obligations.OffsetJumpIsNotReduced : Prop :=
  ∀ nnn : Addr, decode (0xB#4 ++ nnn) = .jpV0 nnn ∧
    ∀ s : State, ∃ t, exec (.jpV0 nnn) s = .next t ∧ t = { s with pc := t.pc } ∧ t.pc.toNat ≤ 0x10FE ∧
      (s.params.jumpUsesX = false → t.pc.toNat = (s.getV 0).toNat + nnn.toNat) ∧
      (s.params.jumpUsesX = true → ∀ x : Reg, x.val = nnn.toNat / 0x100 → t.pc.toNat = (s.getV x).toNat + nnn.toNat)

/-! Register file and ALU. -/

/-- LD Vx, nn and LD Vx, Vy (42_alu.md R131, R133). -/
def Obligations.SetAndCopyWriteOneRegister : Prop :=
  ∀ (x y : Reg) (nn : Byte),
    decode (0x6#4 ++ nibbleBits x ++ nn) = .ldImm x nn ∧
    decode (0x8#4 ++ nibbleBits x ++ nibbleBits y ++ 0x0#4) = .ldReg x y ∧
    ∀ s : State,
      exec (.ldImm x nn) s = .next { s with v := s.v.set x.val nn x.isLt } ∧
      exec (.ldReg x y) s = .next { s with v := s.v.set x.val (s.getV y) x.isLt }

/-- ADD Vx, nn wraps modulo 256 and leaves VF alone unless VF is its operand (42_alu.md R132). -/
def Obligations.AddImmediateWrapsWithoutFlag : Prop :=
  ∀ (x : Reg) (nn : Byte), decode (0x7#4 ++ nibbleBits x ++ nn) = .addImm x nn ∧
    ∀ s : State, ∃ t, exec (.addImm x nn) s = .next t ∧ t = { s with v := t.v } ∧
      (t.getV x).toNat = ((s.getV x).toNat + nn.toNat) % 256 ∧ ∀ r, r ≠ x → t.getV r = s.getV r

/-- OR, AND and XOR write `V[x]` alone (42_alu.md R134 to R136). -/
def Obligations.LogicWritesNoFlag : Prop :=
  ∀ x y : Reg,
    decode (0x8#4 ++ nibbleBits x ++ nibbleBits y ++ 0x1#4) = .orReg x y ∧
    decode (0x8#4 ++ nibbleBits x ++ nibbleBits y ++ 0x2#4) = .andReg x y ∧
    decode (0x8#4 ++ nibbleBits x ++ nibbleBits y ++ 0x3#4) = .xorReg x y ∧
    ∀ s : State,
      exec (.orReg x y) s = .next { s with v := s.v.set x.val (s.getV x ||| s.getV y) x.isLt } ∧
      exec (.andReg x y) s = .next { s with v := s.v.set x.val (s.getV x &&& s.getV y) x.isLt } ∧
      exec (.xorReg x y) s = .next { s with v := s.v.set x.val (s.getV x ^^^ s.getV y) x.isLt }

/-- ADD Vx, Vy: VF is the carry of the exact sum and `V[x]` the wrapped sum; with x = F the flag remains
(42_alu.md R137; the x = F case is the spec's decision D9). -/
def Obligations.AddSetsCarry : Prop :=
  ∀ (x y : Reg) (s : State), ∃ t, exec (.addReg x y) s = .next t ∧ t = { s with v := t.v } ∧
    t.getV 15 = (if (s.getV x).toNat + (s.getV y).toNat > 0xFF then 1 else 0) ∧
    (x ≠ 15 → (t.getV x).toNat = ((s.getV x).toNat + (s.getV y).toNat) % 256) ∧
    ∀ r, r ≠ x → r ≠ 15 → t.getV r = s.getV r

/-- SUB and SUBN: VF is 0 exactly when a borrow occurred and `V[x]` the wrapped difference; with x = F the flag remains
(42_alu.md R138, R140; the x = F case is the spec's decision D9). -/
def Obligations.SubtractSetsNoBorrow : Prop :=
  ∀ (x y : Reg) (s : State),
    (∃ t, exec (.subReg x y) s = .next t ∧ t = { s with v := t.v } ∧
      t.getV 15 = (if (s.getV x).toNat < (s.getV y).toNat then 0 else 1) ∧
      (x ≠ 15 → (t.getV x).toNat = ((s.getV x).toNat + 256 - (s.getV y).toNat) % 256) ∧
      ∀ r, r ≠ x → r ≠ 15 → t.getV r = s.getV r) ∧
    (∃ t, exec (.subnReg x y) s = .next t ∧ t = { s with v := t.v } ∧
      t.getV 15 = (if (s.getV y).toNat < (s.getV x).toNat then 0 else 1) ∧
      (x ≠ 15 → (t.getV x).toNat = ((s.getV y).toNat + 256 - (s.getV x).toNat) % 256) ∧
      ∀ r, r ≠ x → r ≠ 15 → t.getV r = s.getV r)

/-- SHR and SHL shift `V[y]` with `SHIFT_USES_Y` and `V[x]` without; VF is the bit shifted out; with x = F the shift applies
to the flag, so VF ends 0 after SHR and twice the bit after SHL (42_alu.md R139, R141; the x = F case is the spec's
decision D10). -/
def Obligations.ShiftsMoveOneBitIntoTheFlag : Prop :=
  ∀ (x y : Reg) (s : State) (a : Nat), a = (if s.params.shiftUsesY then s.getV y else s.getV x).toNat →
    (∃ t, exec (.shr x y) s = .next t ∧ t = { s with v := t.v } ∧
      (x ≠ 15 → (t.getV x).toNat = a / 2 ∧ (t.getV 15).toNat = a % 2) ∧
      (x = 15 → (t.getV 15).toNat = 0) ∧ ∀ r, r ≠ x → r ≠ 15 → t.getV r = s.getV r) ∧
    (∃ t, exec (.shl x y) s = .next t ∧ t = { s with v := t.v } ∧
      (x ≠ 15 → (t.getV x).toNat = 2 * a % 256 ∧ (t.getV 15).toNat = a / 128) ∧
      (x = 15 → (t.getV 15).toNat = 2 * (a / 128)) ∧ ∀ r, r ≠ x → r ≠ 15 → t.getV r = s.getV r)

/-- RND Vx, nn: `V[x]` is the free input masked by nn, and one input is consumed (42_alu.md R142, decision D19; the input is
a free value, log entry 2). -/
def Obligations.RandomByteIsMasked : Prop :=
  ∀ (x : Reg) (nn : Byte) (s : State),
    exec (.rnd x nn) s =
      .next { s with v := s.v.set x.val (Config.randByte s.randDraws &&& nn) x.isLt, randDraws := s.randDraws + 1 }

/-! Index register and memory. -/

/-- LD I, nnn (43_index_memory.md R170). -/
def Obligations.SetIndexLoadsTwelveBits : Prop :=
  ∀ nnn : Addr, decode (0xA#4 ++ nnn) = .ldI nnn ∧
    ∀ s : State, exec (.ldI nnn) s = .next { s with i := nnn.setWidth 16 }

/-- ADD I, Vx: past 0xFFF the sum loses 0x1000 and VF becomes 1; otherwise I is the sum and VF stays; from an I of at most
0x100F the result is at most 0xFFF (43_index_memory.md R171; the bound is the spec's own inference, log entry 11). -/
def Obligations.AddToIndexCorrectsOverflow : Prop :=
  ∀ (x : Reg) (s : State),
    (s.i.toNat + (s.getV x).toNat > 0xFFF → exec (.addI x) s =
      .next { s with v := s.v.set 15 1, i := BitVec.ofNat 16 (s.i.toNat + (s.getV x).toNat - 0x1000) }) ∧
    (s.i.toNat + (s.getV x).toNat ≤ 0xFFF → exec (.addI x) s =
      .next { s with i := BitVec.ofNat 16 (s.i.toNat + (s.getV x).toNat) }) ∧
    (s.i.toNat ≤ 0x100F → ∃ t, exec (.addI x) s = .next t ∧ t.i.toNat ≤ 0xFFF)

/-- LD F, Vx: I is five times the low nibble of `V[x]` (43_index_memory.md R173, from general knowledge; decision D8). -/
def Obligations.FontPointerIsFiveTimesTheDigit : Prop :=
  ∀ (x : Reg) (s : State), s.params.fxMemoryOps = .conventional →
    ∃ t, exec (.ldF x) s = .next t ∧ t = { s with i := t.i } ∧ t.i.toNat = 5 * ((s.getV x).toNat % 16)

/-- LD B, Vx stores the three decimal digits at I, I + 1 and I + 2 modulo 4096, and no other byte changes
(43_index_memory.md R174, from general knowledge). -/
def Obligations.DecimalDigitsAreStored : Prop :=
  ∀ (x : Reg) (s : State), s.params.fxMemoryOps = .conventional → Memory.wf s.mem = true →
    ∃ t, exec (.ldB x) s = .next t ∧ t = { s with mem := t.mem } ∧
      (t.memRead s.i.toNat).toNat = (s.getV x).toNat / 100 ∧
      (t.memRead (s.i.toNat + 1)).toNat = (s.getV x).toNat / 10 % 10 ∧
      (t.memRead (s.i.toNat + 2)).toNat = (s.getV x).toNat % 10 ∧
      ∀ a : Nat, (∀ k < 3, a % 4096 ≠ (s.i.toNat + k) % 4096) → t.memRead a = s.memRead a

/-- LD [I], Vx stores V0 to Vx at I to I + x modulo 4096, no other byte changes, and I advances by `inc(x)`
(43_index_memory.md R175, R177, from general knowledge; a sum past 16 bits is a free value, log entry 10). -/
def Obligations.RegistersAreStored : Prop :=
  ∀ (x : Reg) (s : State), s.params.fxMemoryOps = .conventional → Memory.wf s.mem = true →
    ∃ t, exec (.stRegs x) s = .next t ∧ t = { s with mem := t.mem, i := t.i } ∧
      (∀ k : Reg, k ≤ x → t.memRead (s.i.toNat + k.val) = s.getV k) ∧
      (∀ a : Nat, (∀ k : Reg, k ≤ x → a % 4096 ≠ (s.i.toNat + k.val) % 4096) → t.memRead a = s.memRead a) ∧
      (s.i.toNat + tableInc s.params.loadStoreIMode x.val < 65536 →
        t.i.toNat = s.i.toNat + tableInc s.params.loadStoreIMode x.val)

/-- LD Vx, [I] loads V0 to Vx from I to I + x modulo 4096, no other register changes, memory stays, and I advances by
`inc(x)` (43_index_memory.md R176, R177, from general knowledge; a sum past 16 bits is a free value, log entry 10). -/
def Obligations.RegistersAreLoaded : Prop :=
  ∀ (x : Reg) (s : State), s.params.fxMemoryOps = .conventional →
    ∃ t, exec (.ldRegs x) s = .next t ∧ t = { s with v := t.v, i := t.i } ∧
      (∀ k : Reg, k ≤ x → t.getV k = s.memRead (s.i.toNat + k.val)) ∧
      (∀ k : Reg, x < k → t.getV k = s.getV k) ∧
      (s.i.toNat + tableInc s.params.loadStoreIMode x.val < 65536 →
        t.i.toNat = s.i.toNat + tableInc s.params.loadStoreIMode x.val)

/-- A word that LD [I], Vx stores where the next fetch reads is the word the next fetch reads, its first byte the high one
(20_memory.md R53, R63, decision D25; 70_reset_and_hazards.md R299). -/
def Obligations.StoredWordIsFetchedNext : Prop :=
  ∀ (x k k' : Reg) (s t : State), Memory.wf s.mem = true → exec (.stRegs x) s = .next t →
    k'.val = k.val + 1 → k' ≤ x → s.pc.toNat % 4096 = (s.i.toNat + k.val) % 4096 →
    t.nextWord = s.getV k ++ s.getV k'

/-- With `FX_MEMORY_OPS = refuse` the four memory operations are refused, with no report and no fault
(43_index_memory.md R172, decision D6). -/
def Obligations.MemoryOperationsCanBeRefused : Prop :=
  ∀ (x : Reg) (s : State), s.params.fxMemoryOps = .refuse →
    exec (.ldF x) s = .refused .fxMemoryOps ∧ exec (.ldB x) s = .refused .fxMemoryOps ∧
    exec (.stRegs x) s = .refused .fxMemoryOps ∧ exec (.ldRegs x) s = .refused .fxMemoryOps

/-! The framebuffer. -/

/-- CLS turns every pixel off and sets the redraw flag; VF is unchanged (44_display.md R201). -/
def Obligations.ClearTurnsEveryPixelOff : Prop :=
  decode 0x00E0 = .cls ∧
  ∀ s : State, ∃ t, exec .cls s = .next t ∧ t = { s with fb := t.fb, redraw := true } ∧
    ∀ row col, t.fb.pixel row col = false

/-- DRW flips exactly the pixels of the grid under a 1 bit of the sprite, VF is 1 if one of them was on and else 0, and the
redraw flag is set; nothing else changes (44_display.md R200, R202; the coordinates before the clear of VF is decision
D11). -/
def Obligations.DrawFlipsThePixelsUnderTheSprite : Prop :=
  ∀ (x y : Reg) (n : Fin 16) (s : State), ∃ t, exec (.drw x y n) s = .next t ∧
    t = { s with v := t.v, fb := t.fb, redraw := true } ∧
    (∀ row col, t.fb.pixel row col = (s.fb.pixel row col ^^ spriteHit s x y n row col)) ∧
    (t.getV 15 = 0 ∨ t.getV 15 = 1) ∧
    (t.getV 15 = 1 ↔ ∃ row col, spriteHit s x y n row col = true ∧ s.fb.pixel row col = true) ∧
    ∀ r, r ≠ 15 → t.getV r = s.getV r

/-- Drawing the same sprite twice at the same coordinates restores the framebuffer; the second draw collides exactly when
some pixel under the sprite was off before the first, and on a clear screen the first does not collide
(44_display.md R202; the source's property in 95_test_vectors.md L1.5). -/
def Obligations.DrawingTwiceRestoresTheFramebuffer : Prop :=
  ∀ (x y : Reg) (n : Fin 16) (s t u : State), exec (.drw x y n) s = .next t → exec (.drw x y n) t = .next u →
    t.getV x = s.getV x → t.getV y = s.getV y →
    u.fb = s.fb ∧
    (u.getV 15 = 1 ↔ ∃ row col, spriteHit s x y n row col = true ∧ s.fb.pixel row col = false) ∧
    ((∀ row col, s.fb.pixel row col = false) → t.getV 15 = 0)

/-- The redraw query returns the flag and clears it, and changes nothing else (44_display.md R203, decision D26). -/
def Obligations.RedrawQueryReadsAndClears : Prop :=
  ∀ s : State, s.redrawQuery = (s.redraw, { s with redraw := false }) ∧
    perform .redrawQuery s = .next { s with redraw := false } ∧ s.redrawQuery.2.redrawQuery.1 = false

/-! Timers and keys. -/

/-- The three timer transfers are byte copies with no other effect (45_timers_input.md R231 to R233). -/
def Obligations.TimerTransfersCopyOneByte : Prop :=
  ∀ x : Reg,
    decode (0xF#4 ++ nibbleBits x ++ 0x07#8) = .ldVxDt x ∧
    decode (0xF#4 ++ nibbleBits x ++ 0x15#8) = .ldDtVx x ∧
    decode (0xF#4 ++ nibbleBits x ++ 0x18#8) = .ldStVx x ∧
    ∀ s : State,
      exec (.ldVxDt x) s = .next { s with v := s.v.set x.val s.dt x.isLt } ∧
      exec (.ldDtVx x) s = .next { s with dt := s.getV x } ∧
      exec (.ldStVx x) s = .next { s with st := s.getV x }

/-- SKP and SKNP with a key index of at most 15: `pc + 2` more when the key is held, or is not
(45_timers_input.md R234, R235; the fault above 15 is decision D12 and has its own statement). -/
def Obligations.KeySkipsFollowTheKeyState : Prop :=
  ∀ (x : Reg) (k : Fin 16) (s : State), (s.getV x).toNat = k.val →
    exec (.skp x) s = .next { s with pc := if s.key[k] then s.pc + 2 else s.pc } ∧
    exec (.sknp x) s = .next { s with pc := if s.key[k] then s.pc else s.pc + 2 }

/-- SKP and SKNP with `V[x] > 15` halt the block, and no skip is taken (60_exceptions.md R262, decision D12). -/
def Obligations.KeySkipsFaultPastTheLastKey : Prop :=
  ∀ (x : Reg) (s : State), 15 < (s.getV x).toNat →
    exec (.skp x) s = .next { s with halted := true, faultCause := some .keyIndexOutOfRange } ∧
    exec (.sknp x) s = .next { s with halted := true, faultCause := some .keyIndexOutOfRange }

/-- LD Vx, K with a key held stores the least held index (45_timers_input.md R236, decision D13). -/
def Obligations.KeyWaitStoresTheLeastHeldKey : Prop :=
  ∀ (x : Reg) (k : Fin 16) (s : State), s.key[k] = true → (∀ j : Fin 16, j < k → s.key[j] = false) →
    ∃ t, exec (.ldVxK x) s = .next t ∧ t = { s with v := t.v } ∧ (t.getV x).toNat = k.val ∧
      ∀ r, r ≠ x → t.getV r = s.getV r

/-- LD Vx, K with no key held rewinds `pc` by 2 on 16 bits and writes nothing else; the next step fetches the same word from
the same address (45_timers_input.md R236; the 16-bit rewind is decision D14). -/
def Obligations.KeyWaitStallsUntilAKeyIsHeld : Prop :=
  (∀ (x : Reg) (s : State), (∀ k : Fin 16, s.key[k] = false) → exec (.ldVxK x) s = .next { s with pc := s.pc - 2 }) ∧
  (∀ (x : Reg) (s t : State), step s = .next t → decode s.nextWord = .ldVxK x → (∀ k : Fin 16, s.key[k] = false) →
    t.pc.toNat % 4096 = s.pc.toNat % 4096 ∧ t.nextWord = s.nextWord ∧ t.v = s.v)

/-- `key_down` and `key_up` set and clear one key and change nothing else (45_timers_input.md R237). -/
def Obligations.KeyEventsSetOneKey : Prop :=
  ∀ (k : Fin 16) (s : State),
    (∃ t, perform (.keyDown k) s = .next t ∧ t = { s with key := t.key } ∧ t.key[k] = true ∧
      ∀ j : Fin 16, j ≠ k → t.key[j] = s.key[j]) ∧
    (∃ t, perform (.keyUp k) s = .next t ∧ t = { s with key := t.key } ∧ t.key[k] = false ∧
      ∀ j : Fin 16, j ≠ k → t.key[j] = s.key[j])

/-! Rules over every instruction. -/

/-- Only the writers R23 lists change a general register, each only its own destination (Fx65 its V0 to Vx), VF as a flag
apart (10_state.md R20, R22, R23). -/
def Obligations.OnlyDestinationsAndFlagsAreWritten : Prop :=
  ∀ (i : Instr) (s t : State) (r : Reg), exec i s = .next t → r ≠ 15 → t.getV r ≠ s.getV r →
    (∃ nn, i = .ldImm r nn ∨ i = .addImm r nn ∨ i = .rnd r nn) ∨
    (∃ y, i = .ldReg r y ∨ i = .orReg r y ∨ i = .andReg r y ∨ i = .xorReg r y ∨ i = .addReg r y ∨ i = .subReg r y ∨
      i = .shr r y ∨ i = .subnReg r y ∨ i = .shl r y) ∨
    i = .ldVxDt r ∨ i = .ldVxK r ∨ ∃ x, r ≤ x ∧ i = .ldRegs x

/-- VF changes only as a destination, or as the flag of 8xy4 to 8xy7, 8xyE and Dxyn, or of Fx1E when its sum passes 0xFFF
(10_state.md R22; 90_conflicts.md C5). -/
def Obligations.OnlyFlagWritersChangeTheFlag : Prop :=
  ∀ (i : Instr) (s t : State), exec i s = .next t → t.getV 15 ≠ s.getV 15 →
    (∃ nn, i = .ldImm 15 nn ∨ i = .addImm 15 nn ∨ i = .rnd 15 nn) ∨
    (∃ y, i = .ldReg 15 y ∨ i = .orReg 15 y ∨ i = .andReg 15 y ∨ i = .xorReg 15 y) ∨
    (∃ x y, i = .addReg x y ∨ i = .subReg x y ∨ i = .shr x y ∨ i = .subnReg x y ∨ i = .shl x y ∨ ∃ n, i = .drw x y n) ∨
    (∃ x, i = .addI x ∧ 0xFFF < s.i.toNat + (s.getV x).toNat) ∨ i = .ldVxDt 15 ∨ i = .ldVxK 15 ∨ i = .ldRegs 15

/-- I changes only by Annn, Fx1E and Fx29, and by Fx55 and Fx65 when `LOADSTORE_I_MODE` is not `unchanged`
(10_state.md R26). -/
def Obligations.OnlyIndexInstructionsWriteTheIndex : Prop :=
  ∀ (i : Instr) (s t : State), exec i s = .next t → t.i ≠ s.i →
    (∃ nnn, i = .ldI nnn) ∨ (∃ x, i = .addI x ∨ i = .ldF x) ∨
    (s.params.loadStoreIMode ≠ .unchanged ∧ ∃ x, i = .stRegs x ∨ i = .ldRegs x)

/-- Only CALL and RET change the call stack, by one entry at its top (10_state.md R27). -/
def Obligations.OnlyCallAndReturnUseTheStack : Prop :=
  ∀ (i : Instr) (s t : State), exec i s = .next t → t.stack ≠ s.stack →
    (∃ nnn, i = .call nnn ∧ t.stack = s.stack ++ [s.pc]) ∨ (i = .ret ∧ ∃ w, s.stack = t.stack ++ [w])

/-- A byte of memory changes only by Fx33, at one of three addresses from I on, or by Fx55, at one of x + 1 addresses from I
on (20_memory.md R50; 70_reset_and_hazards.md R299). -/
def Obligations.OnlyTwoInstructionsWriteMemory : Prop :=
  ∀ (i : Instr) (s t : State) (a : Nat), exec i s = .next t → t.memRead a ≠ s.memRead a →
    (∃ x, i = .ldB x ∧ ∃ k < 3, a % 4096 = (s.i.toNat + k) % 4096) ∨
    (∃ x : Reg, i = .stRegs x ∧ ∃ k ≤ x.val, a % 4096 = (s.i.toNat + k) % 4096)

/-- Only CLS and DRW change a pixel or the redraw flag, and both leave the flag set (10_state.md R31, R32). -/
def Obligations.OnlyClearAndDrawTouchTheFramebuffer : Prop :=
  ∀ (i : Instr) (s t : State), exec i s = .next t →
    ((i = .cls ∨ ∃ x y n, i = .drw x y n) → t.redraw = true) ∧
    ((t.fb ≠ s.fb ∨ t.redraw ≠ s.redraw) → i = .cls ∨ ∃ x y n, i = .drw x y n)

/-- No instruction writes the key state or the construction parameters, and none but LD DT, Vx and LD ST, Vx a timer
(10_state.md R28, R29, R33, R36). -/
def Obligations.KeysParametersAndTimersAreKept : Prop :=
  ∀ (i : Instr) (s t : State), exec i s = .next t →
    t.key = s.key ∧ t.params = s.params ∧
    (t.dt ≠ s.dt → ∃ x, i = .ldDtVx x ∧ t.dt = s.getV x) ∧ (t.st ≠ s.st → ∃ x, i = .ldStVx x ∧ t.st = s.getV x)

/-- Only RET on an empty stack, SKP and SKNP past key 15, and CALL on a full finite stack halt the block, each with its own
cause (60_exceptions.md R261 to R263, R265, R267). -/
def Obligations.OnlyThreeCausesHaltTheBlock : Prop :=
  ∀ (i : Instr) (s t : State), exec i s = .next t → s.halted = false → t.halted = true →
    (i = .ret ∧ s.stack = [] ∧ t.faultCause = some .stackUnderflow) ∨
    (∃ x, (i = .skp x ∨ i = .sknp x) ∧ 15 < (s.getV x).toNat ∧ t.faultCause = some .keyIndexOutOfRange) ∨
    (∃ nnn, i = .call nnn ∧ s.params.stackDepth = some s.stack.length ∧ t.faultCause = some .stackOverflow)

/-! Reset and the host. -/

/-- The state right after construction: the registers, `pc`, the stack and the timers as the source states them, the rest as
decision D15 sets them, and the memory contents with the default FONT (10_state.md R40; 20_memory.md R58, decision D16). -/
def Obligations.ResetStateIsTheConstructedState : Prop :=
  (∀ r, State.reset.getV r = 0) ∧ State.reset.i = 0 ∧ State.reset.pc = 0x200 ∧ State.reset.stack = [] ∧
  State.reset.dt = 0 ∧ State.reset.st = 0 ∧ (∀ row col, State.reset.fb.pixel row col = false) ∧
  State.reset.redraw = false ∧ (∀ k : Fin 16, State.reset.key[k] = false) ∧ State.reset.halted = false ∧
  State.reset.faultCause = none ∧
  ((List.range 5).map fun k => State.reset.memRead k) = [0xF0, 0x90, 0x90, 0x90, 0xF0] ∧
  ((List.range 5).map fun k => State.reset.memRead (0x4B + k)) = [0xF0, 0x80, 0xF0, 0x80, 0x80] ∧
  State.reset.memRead 0x50 = 0 ∧ State.reset.memRead 0x200 = 0 ∧ State.reset.memRead 0xFFF = 0

/-- Construction writes FONT to 0x000 to 0x04F and zeroes 0x050 to 0xFFF, for every 80-byte FONT and all parameters
(70_reset_and_hazards.md R291). -/
def Obligations.ConstructionPreloadsTheFont : Prop :=
  ∀ (p : Params) (font : Vector Byte 80),
    (∀ k : Fin 80, (State.construct p font).memRead k.val = font[k]) ∧
    (∀ a, 0x50 ≤ a → a ≤ 0xFFF → (State.construct p font).memRead a = 0) ∧
    State.construct p font = { State.reset with params := p, mem := (State.construct p font).mem }

/-- `load_program` copies the image to 0x200 on and changes no other byte; it is refused when it is longer than 3584 bytes, a
second time, and after the first step (70_reset_and_hazards.md R292, decision D22; the field `loadable` is the model's,
log entry 13). -/
def Obligations.LoadProgramCopiesTheImage : Prop :=
  ∀ (s : State) (bytes : List Byte),
    (Memory.wf s.mem = true → s.loadable = true → bytes.length ≤ 3584 →
      ∃ t, perform (.loadProgram bytes) s = .next t ∧ t = { s with mem := t.mem, loadable := false } ∧
        (∀ k (h : k < bytes.length), t.memRead (0x200 + k) = bytes[k]) ∧
        ∀ a, a < 4096 → (a < 0x200 ∨ 0x200 + bytes.length ≤ a) → t.memRead a = s.memRead a) ∧
    ((s.loadable = false ∨ 3584 < bytes.length) → perform (.loadProgram bytes) s = .refused .loadProgram) ∧
    (∀ t, step s = .next t → t.loadable = false)

/-! Invariants and runs. -/

/-- The state after reset meets the invariant. -/
def Obligations.ResetMeetsTheInvariant : Prop := State.reset.Inv

/-- Every step keeps the invariant, from every state that meets it (10_state.md R24 to R27, R37; the canonical form of
memory is the model's, log entry 7, and the two values of `pc` a rewind leaves are deduced, log entry 12). -/
def Obligations.StepKeepsTheInvariant : Prop :=
  ∀ s t : State, s.Inv → step s = .next t → t.Inv

/-- Every state the host can drive the block to, from any construction and by any sequence of host operations, meets the
invariant (10_state.md R24 to R27, R37; 70_reset_and_hazards.md R293; the canonical form of memory is the model's, log
entry 7, and the two values of `pc` a rewind leaves are deduced, log entry 12). -/
def Obligations.EveryDrivenRunMeetsTheInvariant : Prop :=
  ∀ s : State, Reachable s → s.Inv

/-- The ends of a run (70_reset_and_hazards.md R303, decision D28; the form of a run is the model's, log entry 19). From an
idle end every step is taken, changes only the timers, the reduction of `pc` modulo 4096 and the model's own fields, and
leaves an idle end, and so do any number of steps. A bounded run ends well exactly when the host operations reach its step
count with no halted state on the way; an idle run ends well exactly at the first idle boundary, with no halted state
before it. A halted state ends every run and never well. A state in which Fx0A waits is no idle end. -/
def Obligations.IdleEndRepeatsItself : Prop :=
  (∀ s : State, s.idleEnd → ∃ t, step s = .next t ∧ t.idleEnd ∧
    t = { s with pc := BitVec.ofNat 16 (s.pc.toNat % 4096), dt := t.dt, st := t.st, unknownReport := none,
                 tickSamples := s.tickSamples + 1, loadable := false }) ∧
  (∀ (s : State) (n : Nat), s.idleEnd → ∃ t, runSteps n s = .next t ∧ t.idleEnd ∧ t.pc.toNat % 4096 = s.pc.toNat % 4096 ∧
    t = { s with pc := t.pc, dt := t.dt, st := t.st, unknownReport := t.unknownReport,
                 tickSamples := s.tickSamples + n, loadable := t.loadable }) ∧
  (∀ (n : Nat) (ops : List HostOp) (s t : State), run (.bounded n) ops s = .goodEnd t ↔
    ∃ pre rest, ops = pre ++ rest ∧ runOps pre s = .next t ∧ stepCount pre = n ∧ t.halted = false ∧
      ∀ p u, p <+: pre → p ≠ pre → runOps p s = .next u → stepCount p < n ∧ u.halted = false) ∧
  (∀ (ops : List HostOp) (s t : State), run .idle ops s = .goodEnd t ↔
    ∃ pre rest, ops = pre ++ rest ∧ runOps pre s = .next t ∧ t.idleEnd ∧
      ∀ p u, p <+: pre → p ≠ pre → runOps p s = .next u → u.halted = false ∧ ¬ u.idleEnd) ∧
  (∀ (e : RunEnd) (ops : List HostOp) (s t : State), run e ops s = .haltedEnd t → t.halted = true) ∧
  (∀ (e : RunEnd) (ops : List HostOp) (s : State), s.halted = true → run e ops s = .haltedEnd s) ∧
  ∀ (s : State) (x : Reg), decode s.nextWord = .ldVxK x → ¬ s.idleEnd

/-- Construction with any parameters and any 80-byte FONT meets the invariant (10_state.md R40; 70_reset_and_hazards.md
R290, R291; log entry 7). -/
def Obligations.ConstructionMeetsTheInvariant : Prop :=
  ∀ (p : Params) (font : Vector Byte 80), (State.construct p font).Inv

/-- Every operation of the host keeps the invariant, from every state that meets it: `execute`, the key events, the program
load and the redraw query (44_display.md R203; 45_timers_input.md R237; 70_reset_and_hazards.md R292; log entries 7, 12
and 15). -/
def Obligations.HostOperationsKeepTheInvariant : Prop :=
  ∀ (op : HostOp) (s t : State), s.Inv → perform op s = .next t → t.Inv
end

