-- ==== Sys2Proof/Laws/State.lean ====
section
/-! SUPPORT. One lemma per field per update of State: what every named update writes, and that it leaves the rest. Later
proofs rewrite with these and unfold no record update. -/

namespace Sys2Proof.Machine

variable (s : State)

/-! `State.setV` -/

@[simp] theorem State.setV_v (x : Reg) (b : Byte) : (s.setV x b).v = s.v.set x.val b x.isLt := rfl
@[simp] theorem State.setV_i (x : Reg) (b : Byte) : (s.setV x b).i = s.i := rfl
@[simp] theorem State.setV_pc (x : Reg) (b : Byte) : (s.setV x b).pc = s.pc := rfl
@[simp] theorem State.setV_stack (x : Reg) (b : Byte) : (s.setV x b).stack = s.stack := rfl
@[simp] theorem State.setV_dt (x : Reg) (b : Byte) : (s.setV x b).dt = s.dt := rfl
@[simp] theorem State.setV_st (x : Reg) (b : Byte) : (s.setV x b).st = s.st := rfl
@[simp] theorem State.setV_fb (x : Reg) (b : Byte) : (s.setV x b).fb = s.fb := rfl
@[simp] theorem State.setV_redraw (x : Reg) (b : Byte) : (s.setV x b).redraw = s.redraw := rfl
@[simp] theorem State.setV_key (x : Reg) (b : Byte) : (s.setV x b).key = s.key := rfl
@[simp] theorem State.setV_mem (x : Reg) (b : Byte) : (s.setV x b).mem = s.mem := rfl
@[simp] theorem State.setV_halted (x : Reg) (b : Byte) : (s.setV x b).halted = s.halted := rfl
@[simp] theorem State.setV_faultCause (x : Reg) (b : Byte) : (s.setV x b).faultCause = s.faultCause := rfl
@[simp] theorem State.setV_params (x : Reg) (b : Byte) : (s.setV x b).params = s.params := rfl
@[simp] theorem State.setV_unknownReport (x : Reg) (b : Byte) : (s.setV x b).unknownReport = s.unknownReport := rfl
@[simp] theorem State.setV_tickSamples (x : Reg) (b : Byte) : (s.setV x b).tickSamples = s.tickSamples := rfl
@[simp] theorem State.setV_randDraws (x : Reg) (b : Byte) : (s.setV x b).randDraws = s.randDraws := rfl
@[simp] theorem State.setV_loadable (x : Reg) (b : Byte) : (s.setV x b).loadable = s.loadable := rfl
@[simp] theorem State.setV_memRead (x : Reg) (b : Byte) (addr : Nat) : (s.setV x b).memRead addr = s.memRead addr := rfl

/-! `State.setVF` -/

@[simp] theorem State.setVF_v (b : Byte) : (s.setVF b).v = s.v.set vf.val b vf.isLt := rfl
@[simp] theorem State.setVF_i (b : Byte) : (s.setVF b).i = s.i := rfl
@[simp] theorem State.setVF_pc (b : Byte) : (s.setVF b).pc = s.pc := rfl
@[simp] theorem State.setVF_stack (b : Byte) : (s.setVF b).stack = s.stack := rfl
@[simp] theorem State.setVF_dt (b : Byte) : (s.setVF b).dt = s.dt := rfl
@[simp] theorem State.setVF_st (b : Byte) : (s.setVF b).st = s.st := rfl
@[simp] theorem State.setVF_fb (b : Byte) : (s.setVF b).fb = s.fb := rfl
@[simp] theorem State.setVF_redraw (b : Byte) : (s.setVF b).redraw = s.redraw := rfl
@[simp] theorem State.setVF_key (b : Byte) : (s.setVF b).key = s.key := rfl
@[simp] theorem State.setVF_mem (b : Byte) : (s.setVF b).mem = s.mem := rfl
@[simp] theorem State.setVF_halted (b : Byte) : (s.setVF b).halted = s.halted := rfl
@[simp] theorem State.setVF_faultCause (b : Byte) : (s.setVF b).faultCause = s.faultCause := rfl
@[simp] theorem State.setVF_params (b : Byte) : (s.setVF b).params = s.params := rfl
@[simp] theorem State.setVF_unknownReport (b : Byte) : (s.setVF b).unknownReport = s.unknownReport := rfl
@[simp] theorem State.setVF_tickSamples (b : Byte) : (s.setVF b).tickSamples = s.tickSamples := rfl
@[simp] theorem State.setVF_randDraws (b : Byte) : (s.setVF b).randDraws = s.randDraws := rfl
@[simp] theorem State.setVF_loadable (b : Byte) : (s.setVF b).loadable = s.loadable := rfl
@[simp] theorem State.setVF_memRead (b : Byte) (addr : Nat) : (s.setVF b).memRead addr = s.memRead addr := rfl

/-! `State.setI` -/

@[simp] theorem State.setI_v (w : Word) : (s.setI w).v = s.v := rfl
@[simp] theorem State.setI_i (w : Word) : (s.setI w).i = w := rfl
@[simp] theorem State.setI_pc (w : Word) : (s.setI w).pc = s.pc := rfl
@[simp] theorem State.setI_stack (w : Word) : (s.setI w).stack = s.stack := rfl
@[simp] theorem State.setI_dt (w : Word) : (s.setI w).dt = s.dt := rfl
@[simp] theorem State.setI_st (w : Word) : (s.setI w).st = s.st := rfl
@[simp] theorem State.setI_fb (w : Word) : (s.setI w).fb = s.fb := rfl
@[simp] theorem State.setI_redraw (w : Word) : (s.setI w).redraw = s.redraw := rfl
@[simp] theorem State.setI_key (w : Word) : (s.setI w).key = s.key := rfl
@[simp] theorem State.setI_mem (w : Word) : (s.setI w).mem = s.mem := rfl
@[simp] theorem State.setI_halted (w : Word) : (s.setI w).halted = s.halted := rfl
@[simp] theorem State.setI_faultCause (w : Word) : (s.setI w).faultCause = s.faultCause := rfl
@[simp] theorem State.setI_params (w : Word) : (s.setI w).params = s.params := rfl
@[simp] theorem State.setI_unknownReport (w : Word) : (s.setI w).unknownReport = s.unknownReport := rfl
@[simp] theorem State.setI_tickSamples (w : Word) : (s.setI w).tickSamples = s.tickSamples := rfl
@[simp] theorem State.setI_randDraws (w : Word) : (s.setI w).randDraws = s.randDraws := rfl
@[simp] theorem State.setI_loadable (w : Word) : (s.setI w).loadable = s.loadable := rfl
@[simp] theorem State.setI_getV (w : Word) (r : Reg) : (s.setI w).getV r = s.getV r := rfl
@[simp] theorem State.setI_memRead (w : Word) (addr : Nat) : (s.setI w).memRead addr = s.memRead addr := rfl

/-! `State.setPc` -/

@[simp] theorem State.setPc_v (w : Word) : (s.setPc w).v = s.v := rfl
@[simp] theorem State.setPc_i (w : Word) : (s.setPc w).i = s.i := rfl
@[simp] theorem State.setPc_pc (w : Word) : (s.setPc w).pc = w := rfl
@[simp] theorem State.setPc_stack (w : Word) : (s.setPc w).stack = s.stack := rfl
@[simp] theorem State.setPc_dt (w : Word) : (s.setPc w).dt = s.dt := rfl
@[simp] theorem State.setPc_st (w : Word) : (s.setPc w).st = s.st := rfl
@[simp] theorem State.setPc_fb (w : Word) : (s.setPc w).fb = s.fb := rfl
@[simp] theorem State.setPc_redraw (w : Word) : (s.setPc w).redraw = s.redraw := rfl
@[simp] theorem State.setPc_key (w : Word) : (s.setPc w).key = s.key := rfl
@[simp] theorem State.setPc_mem (w : Word) : (s.setPc w).mem = s.mem := rfl
@[simp] theorem State.setPc_halted (w : Word) : (s.setPc w).halted = s.halted := rfl
@[simp] theorem State.setPc_faultCause (w : Word) : (s.setPc w).faultCause = s.faultCause := rfl
@[simp] theorem State.setPc_params (w : Word) : (s.setPc w).params = s.params := rfl
@[simp] theorem State.setPc_unknownReport (w : Word) : (s.setPc w).unknownReport = s.unknownReport := rfl
@[simp] theorem State.setPc_tickSamples (w : Word) : (s.setPc w).tickSamples = s.tickSamples := rfl
@[simp] theorem State.setPc_randDraws (w : Word) : (s.setPc w).randDraws = s.randDraws := rfl
@[simp] theorem State.setPc_loadable (w : Word) : (s.setPc w).loadable = s.loadable := rfl
@[simp] theorem State.setPc_getV (w : Word) (r : Reg) : (s.setPc w).getV r = s.getV r := rfl
@[simp] theorem State.setPc_memRead (w : Word) (addr : Nat) : (s.setPc w).memRead addr = s.memRead addr := rfl

/-! `State.setStack` -/

@[simp] theorem State.setStack_v (l : List Word) : (s.setStack l).v = s.v := rfl
@[simp] theorem State.setStack_i (l : List Word) : (s.setStack l).i = s.i := rfl
@[simp] theorem State.setStack_pc (l : List Word) : (s.setStack l).pc = s.pc := rfl
@[simp] theorem State.setStack_stack (l : List Word) : (s.setStack l).stack = l := rfl
@[simp] theorem State.setStack_dt (l : List Word) : (s.setStack l).dt = s.dt := rfl
@[simp] theorem State.setStack_st (l : List Word) : (s.setStack l).st = s.st := rfl
@[simp] theorem State.setStack_fb (l : List Word) : (s.setStack l).fb = s.fb := rfl
@[simp] theorem State.setStack_redraw (l : List Word) : (s.setStack l).redraw = s.redraw := rfl
@[simp] theorem State.setStack_key (l : List Word) : (s.setStack l).key = s.key := rfl
@[simp] theorem State.setStack_mem (l : List Word) : (s.setStack l).mem = s.mem := rfl
@[simp] theorem State.setStack_halted (l : List Word) : (s.setStack l).halted = s.halted := rfl
@[simp] theorem State.setStack_faultCause (l : List Word) : (s.setStack l).faultCause = s.faultCause := rfl
@[simp] theorem State.setStack_params (l : List Word) : (s.setStack l).params = s.params := rfl
@[simp] theorem State.setStack_unknownReport (l : List Word) : (s.setStack l).unknownReport = s.unknownReport := rfl
@[simp] theorem State.setStack_tickSamples (l : List Word) : (s.setStack l).tickSamples = s.tickSamples := rfl
@[simp] theorem State.setStack_randDraws (l : List Word) : (s.setStack l).randDraws = s.randDraws := rfl
@[simp] theorem State.setStack_loadable (l : List Word) : (s.setStack l).loadable = s.loadable := rfl
@[simp] theorem State.setStack_getV (l : List Word) (r : Reg) : (s.setStack l).getV r = s.getV r := rfl
@[simp] theorem State.setStack_memRead (l : List Word) (addr : Nat) : (s.setStack l).memRead addr = s.memRead addr := rfl

/-! `State.setDt` -/

@[simp] theorem State.setDt_v (b : Byte) : (s.setDt b).v = s.v := rfl
@[simp] theorem State.setDt_i (b : Byte) : (s.setDt b).i = s.i := rfl
@[simp] theorem State.setDt_pc (b : Byte) : (s.setDt b).pc = s.pc := rfl
@[simp] theorem State.setDt_stack (b : Byte) : (s.setDt b).stack = s.stack := rfl
@[simp] theorem State.setDt_dt (b : Byte) : (s.setDt b).dt = b := rfl
@[simp] theorem State.setDt_st (b : Byte) : (s.setDt b).st = s.st := rfl
@[simp] theorem State.setDt_fb (b : Byte) : (s.setDt b).fb = s.fb := rfl
@[simp] theorem State.setDt_redraw (b : Byte) : (s.setDt b).redraw = s.redraw := rfl
@[simp] theorem State.setDt_key (b : Byte) : (s.setDt b).key = s.key := rfl
@[simp] theorem State.setDt_mem (b : Byte) : (s.setDt b).mem = s.mem := rfl
@[simp] theorem State.setDt_halted (b : Byte) : (s.setDt b).halted = s.halted := rfl
@[simp] theorem State.setDt_faultCause (b : Byte) : (s.setDt b).faultCause = s.faultCause := rfl
@[simp] theorem State.setDt_params (b : Byte) : (s.setDt b).params = s.params := rfl
@[simp] theorem State.setDt_unknownReport (b : Byte) : (s.setDt b).unknownReport = s.unknownReport := rfl
@[simp] theorem State.setDt_tickSamples (b : Byte) : (s.setDt b).tickSamples = s.tickSamples := rfl
@[simp] theorem State.setDt_randDraws (b : Byte) : (s.setDt b).randDraws = s.randDraws := rfl
@[simp] theorem State.setDt_loadable (b : Byte) : (s.setDt b).loadable = s.loadable := rfl
@[simp] theorem State.setDt_getV (b : Byte) (r : Reg) : (s.setDt b).getV r = s.getV r := rfl
@[simp] theorem State.setDt_memRead (b : Byte) (addr : Nat) : (s.setDt b).memRead addr = s.memRead addr := rfl

/-! `State.setSt` -/

@[simp] theorem State.setSt_v (b : Byte) : (s.setSt b).v = s.v := rfl
@[simp] theorem State.setSt_i (b : Byte) : (s.setSt b).i = s.i := rfl
@[simp] theorem State.setSt_pc (b : Byte) : (s.setSt b).pc = s.pc := rfl
@[simp] theorem State.setSt_stack (b : Byte) : (s.setSt b).stack = s.stack := rfl
@[simp] theorem State.setSt_dt (b : Byte) : (s.setSt b).dt = s.dt := rfl
@[simp] theorem State.setSt_st (b : Byte) : (s.setSt b).st = b := rfl
@[simp] theorem State.setSt_fb (b : Byte) : (s.setSt b).fb = s.fb := rfl
@[simp] theorem State.setSt_redraw (b : Byte) : (s.setSt b).redraw = s.redraw := rfl
@[simp] theorem State.setSt_key (b : Byte) : (s.setSt b).key = s.key := rfl
@[simp] theorem State.setSt_mem (b : Byte) : (s.setSt b).mem = s.mem := rfl
@[simp] theorem State.setSt_halted (b : Byte) : (s.setSt b).halted = s.halted := rfl
@[simp] theorem State.setSt_faultCause (b : Byte) : (s.setSt b).faultCause = s.faultCause := rfl
@[simp] theorem State.setSt_params (b : Byte) : (s.setSt b).params = s.params := rfl
@[simp] theorem State.setSt_unknownReport (b : Byte) : (s.setSt b).unknownReport = s.unknownReport := rfl
@[simp] theorem State.setSt_tickSamples (b : Byte) : (s.setSt b).tickSamples = s.tickSamples := rfl
@[simp] theorem State.setSt_randDraws (b : Byte) : (s.setSt b).randDraws = s.randDraws := rfl
@[simp] theorem State.setSt_loadable (b : Byte) : (s.setSt b).loadable = s.loadable := rfl
@[simp] theorem State.setSt_getV (b : Byte) (r : Reg) : (s.setSt b).getV r = s.getV r := rfl
@[simp] theorem State.setSt_memRead (b : Byte) (addr : Nat) : (s.setSt b).memRead addr = s.memRead addr := rfl

/-! `State.setFb` -/

@[simp] theorem State.setFb_v (f : Framebuffer) : (s.setFb f).v = s.v := rfl
@[simp] theorem State.setFb_i (f : Framebuffer) : (s.setFb f).i = s.i := rfl
@[simp] theorem State.setFb_pc (f : Framebuffer) : (s.setFb f).pc = s.pc := rfl
@[simp] theorem State.setFb_stack (f : Framebuffer) : (s.setFb f).stack = s.stack := rfl
@[simp] theorem State.setFb_dt (f : Framebuffer) : (s.setFb f).dt = s.dt := rfl
@[simp] theorem State.setFb_st (f : Framebuffer) : (s.setFb f).st = s.st := rfl
@[simp] theorem State.setFb_fb (f : Framebuffer) : (s.setFb f).fb = f := rfl
@[simp] theorem State.setFb_redraw (f : Framebuffer) : (s.setFb f).redraw = s.redraw := rfl
@[simp] theorem State.setFb_key (f : Framebuffer) : (s.setFb f).key = s.key := rfl
@[simp] theorem State.setFb_mem (f : Framebuffer) : (s.setFb f).mem = s.mem := rfl
@[simp] theorem State.setFb_halted (f : Framebuffer) : (s.setFb f).halted = s.halted := rfl
@[simp] theorem State.setFb_faultCause (f : Framebuffer) : (s.setFb f).faultCause = s.faultCause := rfl
@[simp] theorem State.setFb_params (f : Framebuffer) : (s.setFb f).params = s.params := rfl
@[simp] theorem State.setFb_unknownReport (f : Framebuffer) : (s.setFb f).unknownReport = s.unknownReport := rfl
@[simp] theorem State.setFb_tickSamples (f : Framebuffer) : (s.setFb f).tickSamples = s.tickSamples := rfl
@[simp] theorem State.setFb_randDraws (f : Framebuffer) : (s.setFb f).randDraws = s.randDraws := rfl
@[simp] theorem State.setFb_loadable (f : Framebuffer) : (s.setFb f).loadable = s.loadable := rfl
@[simp] theorem State.setFb_getV (f : Framebuffer) (r : Reg) : (s.setFb f).getV r = s.getV r := rfl
@[simp] theorem State.setFb_memRead (f : Framebuffer) (addr : Nat) : (s.setFb f).memRead addr = s.memRead addr := rfl

/-! `State.setRedraw` -/

@[simp] theorem State.setRedraw_v (b : Bool) : (s.setRedraw b).v = s.v := rfl
@[simp] theorem State.setRedraw_i (b : Bool) : (s.setRedraw b).i = s.i := rfl
@[simp] theorem State.setRedraw_pc (b : Bool) : (s.setRedraw b).pc = s.pc := rfl
@[simp] theorem State.setRedraw_stack (b : Bool) : (s.setRedraw b).stack = s.stack := rfl
@[simp] theorem State.setRedraw_dt (b : Bool) : (s.setRedraw b).dt = s.dt := rfl
@[simp] theorem State.setRedraw_st (b : Bool) : (s.setRedraw b).st = s.st := rfl
@[simp] theorem State.setRedraw_fb (b : Bool) : (s.setRedraw b).fb = s.fb := rfl
@[simp] theorem State.setRedraw_redraw (b : Bool) : (s.setRedraw b).redraw = b := rfl
@[simp] theorem State.setRedraw_key (b : Bool) : (s.setRedraw b).key = s.key := rfl
@[simp] theorem State.setRedraw_mem (b : Bool) : (s.setRedraw b).mem = s.mem := rfl
@[simp] theorem State.setRedraw_halted (b : Bool) : (s.setRedraw b).halted = s.halted := rfl
@[simp] theorem State.setRedraw_faultCause (b : Bool) : (s.setRedraw b).faultCause = s.faultCause := rfl
@[simp] theorem State.setRedraw_params (b : Bool) : (s.setRedraw b).params = s.params := rfl
@[simp] theorem State.setRedraw_unknownReport (b : Bool) : (s.setRedraw b).unknownReport = s.unknownReport := rfl
@[simp] theorem State.setRedraw_tickSamples (b : Bool) : (s.setRedraw b).tickSamples = s.tickSamples := rfl
@[simp] theorem State.setRedraw_randDraws (b : Bool) : (s.setRedraw b).randDraws = s.randDraws := rfl
@[simp] theorem State.setRedraw_loadable (b : Bool) : (s.setRedraw b).loadable = s.loadable := rfl
@[simp] theorem State.setRedraw_getV (b : Bool) (r : Reg) : (s.setRedraw b).getV r = s.getV r := rfl
@[simp] theorem State.setRedraw_memRead (b : Bool) (addr : Nat) : (s.setRedraw b).memRead addr = s.memRead addr := rfl

/-! `State.setKey` -/

@[simp] theorem State.setKey_v (k : Fin 16) (b : Bool) : (s.setKey k b).v = s.v := rfl
@[simp] theorem State.setKey_i (k : Fin 16) (b : Bool) : (s.setKey k b).i = s.i := rfl
@[simp] theorem State.setKey_pc (k : Fin 16) (b : Bool) : (s.setKey k b).pc = s.pc := rfl
@[simp] theorem State.setKey_stack (k : Fin 16) (b : Bool) : (s.setKey k b).stack = s.stack := rfl
@[simp] theorem State.setKey_dt (k : Fin 16) (b : Bool) : (s.setKey k b).dt = s.dt := rfl
@[simp] theorem State.setKey_st (k : Fin 16) (b : Bool) : (s.setKey k b).st = s.st := rfl
@[simp] theorem State.setKey_fb (k : Fin 16) (b : Bool) : (s.setKey k b).fb = s.fb := rfl
@[simp] theorem State.setKey_redraw (k : Fin 16) (b : Bool) : (s.setKey k b).redraw = s.redraw := rfl
@[simp] theorem State.setKey_key (k : Fin 16) (b : Bool) : (s.setKey k b).key = s.key.set k.val b k.isLt := rfl
@[simp] theorem State.setKey_mem (k : Fin 16) (b : Bool) : (s.setKey k b).mem = s.mem := rfl
@[simp] theorem State.setKey_halted (k : Fin 16) (b : Bool) : (s.setKey k b).halted = s.halted := rfl
@[simp] theorem State.setKey_faultCause (k : Fin 16) (b : Bool) : (s.setKey k b).faultCause = s.faultCause := rfl
@[simp] theorem State.setKey_params (k : Fin 16) (b : Bool) : (s.setKey k b).params = s.params := rfl
@[simp] theorem State.setKey_unknownReport (k : Fin 16) (b : Bool) : (s.setKey k b).unknownReport = s.unknownReport := rfl
@[simp] theorem State.setKey_tickSamples (k : Fin 16) (b : Bool) : (s.setKey k b).tickSamples = s.tickSamples := rfl
@[simp] theorem State.setKey_randDraws (k : Fin 16) (b : Bool) : (s.setKey k b).randDraws = s.randDraws := rfl
@[simp] theorem State.setKey_loadable (k : Fin 16) (b : Bool) : (s.setKey k b).loadable = s.loadable := rfl
@[simp] theorem State.setKey_getV (k : Fin 16) (b : Bool) (r : Reg) : (s.setKey k b).getV r = s.getV r := rfl
@[simp] theorem State.setKey_memRead (k : Fin 16) (b : Bool) (addr : Nat) : (s.setKey k b).memRead addr = s.memRead addr := rfl

/-! `State.memWrite` -/

@[simp] theorem State.memWrite_v (a : Nat) (b : Byte) : (s.memWrite a b).v = s.v := rfl
@[simp] theorem State.memWrite_i (a : Nat) (b : Byte) : (s.memWrite a b).i = s.i := rfl
@[simp] theorem State.memWrite_pc (a : Nat) (b : Byte) : (s.memWrite a b).pc = s.pc := rfl
@[simp] theorem State.memWrite_stack (a : Nat) (b : Byte) : (s.memWrite a b).stack = s.stack := rfl
@[simp] theorem State.memWrite_dt (a : Nat) (b : Byte) : (s.memWrite a b).dt = s.dt := rfl
@[simp] theorem State.memWrite_st (a : Nat) (b : Byte) : (s.memWrite a b).st = s.st := rfl
@[simp] theorem State.memWrite_fb (a : Nat) (b : Byte) : (s.memWrite a b).fb = s.fb := rfl
@[simp] theorem State.memWrite_redraw (a : Nat) (b : Byte) : (s.memWrite a b).redraw = s.redraw := rfl
@[simp] theorem State.memWrite_key (a : Nat) (b : Byte) : (s.memWrite a b).key = s.key := rfl
@[simp] theorem State.memWrite_mem (a : Nat) (b : Byte) : (s.memWrite a b).mem = Memory.write s.mem (a % memSize) b := rfl
@[simp] theorem State.memWrite_halted (a : Nat) (b : Byte) : (s.memWrite a b).halted = s.halted := rfl
@[simp] theorem State.memWrite_faultCause (a : Nat) (b : Byte) : (s.memWrite a b).faultCause = s.faultCause := rfl
@[simp] theorem State.memWrite_params (a : Nat) (b : Byte) : (s.memWrite a b).params = s.params := rfl
@[simp] theorem State.memWrite_unknownReport (a : Nat) (b : Byte) : (s.memWrite a b).unknownReport = s.unknownReport := rfl
@[simp] theorem State.memWrite_tickSamples (a : Nat) (b : Byte) : (s.memWrite a b).tickSamples = s.tickSamples := rfl
@[simp] theorem State.memWrite_randDraws (a : Nat) (b : Byte) : (s.memWrite a b).randDraws = s.randDraws := rfl
@[simp] theorem State.memWrite_loadable (a : Nat) (b : Byte) : (s.memWrite a b).loadable = s.loadable := rfl
@[simp] theorem State.memWrite_getV (a : Nat) (b : Byte) (r : Reg) : (s.memWrite a b).getV r = s.getV r := rfl

/-! `State.skip` -/

@[simp] theorem State.skip_v : (s.skip).v = s.v := rfl
@[simp] theorem State.skip_i : (s.skip).i = s.i := rfl
@[simp] theorem State.skip_pc : (s.skip).pc = trunc16 (s.pc.toNat + 2) := rfl
@[simp] theorem State.skip_stack : (s.skip).stack = s.stack := rfl
@[simp] theorem State.skip_dt : (s.skip).dt = s.dt := rfl
@[simp] theorem State.skip_st : (s.skip).st = s.st := rfl
@[simp] theorem State.skip_fb : (s.skip).fb = s.fb := rfl
@[simp] theorem State.skip_redraw : (s.skip).redraw = s.redraw := rfl
@[simp] theorem State.skip_key : (s.skip).key = s.key := rfl
@[simp] theorem State.skip_mem : (s.skip).mem = s.mem := rfl
@[simp] theorem State.skip_halted : (s.skip).halted = s.halted := rfl
@[simp] theorem State.skip_faultCause : (s.skip).faultCause = s.faultCause := rfl
@[simp] theorem State.skip_params : (s.skip).params = s.params := rfl
@[simp] theorem State.skip_unknownReport : (s.skip).unknownReport = s.unknownReport := rfl
@[simp] theorem State.skip_tickSamples : (s.skip).tickSamples = s.tickSamples := rfl
@[simp] theorem State.skip_randDraws : (s.skip).randDraws = s.randDraws := rfl
@[simp] theorem State.skip_loadable : (s.skip).loadable = s.loadable := rfl
@[simp] theorem State.skip_getV (r : Reg) : (s.skip).getV r = s.getV r := rfl
@[simp] theorem State.skip_memRead (addr : Nat) : (s.skip).memRead addr = s.memRead addr := rfl

/-! `State.rewind` -/

@[simp] theorem State.rewind_v : (s.rewind).v = s.v := rfl
@[simp] theorem State.rewind_i : (s.rewind).i = s.i := rfl
@[simp] theorem State.rewind_pc : (s.rewind).pc = s.pc - 2 := rfl
@[simp] theorem State.rewind_stack : (s.rewind).stack = s.stack := rfl
@[simp] theorem State.rewind_dt : (s.rewind).dt = s.dt := rfl
@[simp] theorem State.rewind_st : (s.rewind).st = s.st := rfl
@[simp] theorem State.rewind_fb : (s.rewind).fb = s.fb := rfl
@[simp] theorem State.rewind_redraw : (s.rewind).redraw = s.redraw := rfl
@[simp] theorem State.rewind_key : (s.rewind).key = s.key := rfl
@[simp] theorem State.rewind_mem : (s.rewind).mem = s.mem := rfl
@[simp] theorem State.rewind_halted : (s.rewind).halted = s.halted := rfl
@[simp] theorem State.rewind_faultCause : (s.rewind).faultCause = s.faultCause := rfl
@[simp] theorem State.rewind_params : (s.rewind).params = s.params := rfl
@[simp] theorem State.rewind_unknownReport : (s.rewind).unknownReport = s.unknownReport := rfl
@[simp] theorem State.rewind_tickSamples : (s.rewind).tickSamples = s.tickSamples := rfl
@[simp] theorem State.rewind_randDraws : (s.rewind).randDraws = s.randDraws := rfl
@[simp] theorem State.rewind_loadable : (s.rewind).loadable = s.loadable := rfl
@[simp] theorem State.rewind_getV (r : Reg) : (s.rewind).getV r = s.getV r := rfl
@[simp] theorem State.rewind_memRead (addr : Nat) : (s.rewind).memRead addr = s.memRead addr := rfl

/-! `State.push` -/

@[simp] theorem State.push_v (w : Word) : (s.push w).v = s.v := rfl
@[simp] theorem State.push_i (w : Word) : (s.push w).i = s.i := rfl
@[simp] theorem State.push_pc (w : Word) : (s.push w).pc = s.pc := rfl
@[simp] theorem State.push_stack (w : Word) : (s.push w).stack = s.stack ++ [w] := rfl
@[simp] theorem State.push_dt (w : Word) : (s.push w).dt = s.dt := rfl
@[simp] theorem State.push_st (w : Word) : (s.push w).st = s.st := rfl
@[simp] theorem State.push_fb (w : Word) : (s.push w).fb = s.fb := rfl
@[simp] theorem State.push_redraw (w : Word) : (s.push w).redraw = s.redraw := rfl
@[simp] theorem State.push_key (w : Word) : (s.push w).key = s.key := rfl
@[simp] theorem State.push_mem (w : Word) : (s.push w).mem = s.mem := rfl
@[simp] theorem State.push_halted (w : Word) : (s.push w).halted = s.halted := rfl
@[simp] theorem State.push_faultCause (w : Word) : (s.push w).faultCause = s.faultCause := rfl
@[simp] theorem State.push_params (w : Word) : (s.push w).params = s.params := rfl
@[simp] theorem State.push_unknownReport (w : Word) : (s.push w).unknownReport = s.unknownReport := rfl
@[simp] theorem State.push_tickSamples (w : Word) : (s.push w).tickSamples = s.tickSamples := rfl
@[simp] theorem State.push_randDraws (w : Word) : (s.push w).randDraws = s.randDraws := rfl
@[simp] theorem State.push_loadable (w : Word) : (s.push w).loadable = s.loadable := rfl
@[simp] theorem State.push_getV (w : Word) (r : Reg) : (s.push w).getV r = s.getV r := rfl
@[simp] theorem State.push_memRead (w : Word) (addr : Nat) : (s.push w).memRead addr = s.memRead addr := rfl

/-! `State.raiseFault` -/

@[simp] theorem State.raiseFault_v (c : FaultCause) : (s.raiseFault c).v = s.v := rfl
@[simp] theorem State.raiseFault_i (c : FaultCause) : (s.raiseFault c).i = s.i := rfl
@[simp] theorem State.raiseFault_pc (c : FaultCause) : (s.raiseFault c).pc = s.pc := rfl
@[simp] theorem State.raiseFault_stack (c : FaultCause) : (s.raiseFault c).stack = s.stack := rfl
@[simp] theorem State.raiseFault_dt (c : FaultCause) : (s.raiseFault c).dt = s.dt := rfl
@[simp] theorem State.raiseFault_st (c : FaultCause) : (s.raiseFault c).st = s.st := rfl
@[simp] theorem State.raiseFault_fb (c : FaultCause) : (s.raiseFault c).fb = s.fb := rfl
@[simp] theorem State.raiseFault_redraw (c : FaultCause) : (s.raiseFault c).redraw = s.redraw := rfl
@[simp] theorem State.raiseFault_key (c : FaultCause) : (s.raiseFault c).key = s.key := rfl
@[simp] theorem State.raiseFault_mem (c : FaultCause) : (s.raiseFault c).mem = s.mem := rfl
@[simp] theorem State.raiseFault_halted (c : FaultCause) : (s.raiseFault c).halted = true := rfl
@[simp] theorem State.raiseFault_faultCause (c : FaultCause) : (s.raiseFault c).faultCause = some c := rfl
@[simp] theorem State.raiseFault_params (c : FaultCause) : (s.raiseFault c).params = s.params := rfl
@[simp] theorem State.raiseFault_unknownReport (c : FaultCause) : (s.raiseFault c).unknownReport = s.unknownReport := rfl
@[simp] theorem State.raiseFault_tickSamples (c : FaultCause) : (s.raiseFault c).tickSamples = s.tickSamples := rfl
@[simp] theorem State.raiseFault_randDraws (c : FaultCause) : (s.raiseFault c).randDraws = s.randDraws := rfl
@[simp] theorem State.raiseFault_loadable (c : FaultCause) : (s.raiseFault c).loadable = s.loadable := rfl
@[simp] theorem State.raiseFault_getV (c : FaultCause) (r : Reg) : (s.raiseFault c).getV r = s.getV r := rfl
@[simp] theorem State.raiseFault_memRead (c : FaultCause) (addr : Nat) : (s.raiseFault c).memRead addr = s.memRead addr := rfl

/-! `State.report` -/

@[simp] theorem State.report_v (w : Word) : (s.report w).v = s.v := rfl
@[simp] theorem State.report_i (w : Word) : (s.report w).i = s.i := rfl
@[simp] theorem State.report_pc (w : Word) : (s.report w).pc = s.pc := rfl
@[simp] theorem State.report_stack (w : Word) : (s.report w).stack = s.stack := rfl
@[simp] theorem State.report_dt (w : Word) : (s.report w).dt = s.dt := rfl
@[simp] theorem State.report_st (w : Word) : (s.report w).st = s.st := rfl
@[simp] theorem State.report_fb (w : Word) : (s.report w).fb = s.fb := rfl
@[simp] theorem State.report_redraw (w : Word) : (s.report w).redraw = s.redraw := rfl
@[simp] theorem State.report_key (w : Word) : (s.report w).key = s.key := rfl
@[simp] theorem State.report_mem (w : Word) : (s.report w).mem = s.mem := rfl
@[simp] theorem State.report_halted (w : Word) : (s.report w).halted = s.halted := rfl
@[simp] theorem State.report_faultCause (w : Word) : (s.report w).faultCause = s.faultCause := rfl
@[simp] theorem State.report_params (w : Word) : (s.report w).params = s.params := rfl
@[simp] theorem State.report_unknownReport (w : Word) : (s.report w).unknownReport = some w := rfl
@[simp] theorem State.report_tickSamples (w : Word) : (s.report w).tickSamples = s.tickSamples := rfl
@[simp] theorem State.report_randDraws (w : Word) : (s.report w).randDraws = s.randDraws := rfl
@[simp] theorem State.report_loadable (w : Word) : (s.report w).loadable = s.loadable := rfl
@[simp] theorem State.report_getV (w : Word) (r : Reg) : (s.report w).getV r = s.getV r := rfl
@[simp] theorem State.report_memRead (w : Word) (addr : Nat) : (s.report w).memRead addr = s.memRead addr := rfl

/-! `State.beginStep` -/

@[simp] theorem State.beginStep_v : (s.beginStep).v = s.v := rfl
@[simp] theorem State.beginStep_i : (s.beginStep).i = s.i := rfl
@[simp] theorem State.beginStep_pc : (s.beginStep).pc = s.pc := rfl
@[simp] theorem State.beginStep_stack : (s.beginStep).stack = s.stack := rfl
@[simp] theorem State.beginStep_dt : (s.beginStep).dt = s.dt := rfl
@[simp] theorem State.beginStep_st : (s.beginStep).st = s.st := rfl
@[simp] theorem State.beginStep_fb : (s.beginStep).fb = s.fb := rfl
@[simp] theorem State.beginStep_redraw : (s.beginStep).redraw = s.redraw := rfl
@[simp] theorem State.beginStep_key : (s.beginStep).key = s.key := rfl
@[simp] theorem State.beginStep_mem : (s.beginStep).mem = s.mem := rfl
@[simp] theorem State.beginStep_halted : (s.beginStep).halted = s.halted := rfl
@[simp] theorem State.beginStep_faultCause : (s.beginStep).faultCause = s.faultCause := rfl
@[simp] theorem State.beginStep_params : (s.beginStep).params = s.params := rfl
@[simp] theorem State.beginStep_unknownReport : (s.beginStep).unknownReport = none := rfl
@[simp] theorem State.beginStep_tickSamples : (s.beginStep).tickSamples = s.tickSamples + 1 := rfl
@[simp] theorem State.beginStep_randDraws : (s.beginStep).randDraws = s.randDraws := rfl
@[simp] theorem State.beginStep_loadable : (s.beginStep).loadable = false := rfl
@[simp] theorem State.beginStep_getV (r : Reg) : (s.beginStep).getV r = s.getV r := rfl
@[simp] theorem State.beginStep_memRead (addr : Nat) : (s.beginStep).memRead addr = s.memRead addr := rfl

/-! `State.tick` -/

@[simp] theorem State.tick_v (due : Bool) : (s.tick due).v = s.v := rfl
@[simp] theorem State.tick_i (due : Bool) : (s.tick due).i = s.i := rfl
@[simp] theorem State.tick_pc (due : Bool) : (s.tick due).pc = s.pc := rfl
@[simp] theorem State.tick_stack (due : Bool) : (s.tick due).stack = s.stack := rfl
@[simp] theorem State.tick_dt (due : Bool) : (s.tick due).dt = countdown due s.dt := rfl
@[simp] theorem State.tick_st (due : Bool) : (s.tick due).st = countdown due s.st := rfl
@[simp] theorem State.tick_fb (due : Bool) : (s.tick due).fb = s.fb := rfl
@[simp] theorem State.tick_redraw (due : Bool) : (s.tick due).redraw = s.redraw := rfl
@[simp] theorem State.tick_key (due : Bool) : (s.tick due).key = s.key := rfl
@[simp] theorem State.tick_mem (due : Bool) : (s.tick due).mem = s.mem := rfl
@[simp] theorem State.tick_halted (due : Bool) : (s.tick due).halted = s.halted := rfl
@[simp] theorem State.tick_faultCause (due : Bool) : (s.tick due).faultCause = s.faultCause := rfl
@[simp] theorem State.tick_params (due : Bool) : (s.tick due).params = s.params := rfl
@[simp] theorem State.tick_unknownReport (due : Bool) : (s.tick due).unknownReport = s.unknownReport := rfl
@[simp] theorem State.tick_tickSamples (due : Bool) : (s.tick due).tickSamples = s.tickSamples := rfl
@[simp] theorem State.tick_randDraws (due : Bool) : (s.tick due).randDraws = s.randDraws := rfl
@[simp] theorem State.tick_loadable (due : Bool) : (s.tick due).loadable = s.loadable := rfl
@[simp] theorem State.tick_getV (due : Bool) (r : Reg) : (s.tick due).getV r = s.getV r := rfl
@[simp] theorem State.tick_memRead (due : Bool) (addr : Nat) : (s.tick due).memRead addr = s.memRead addr := rfl

/-! The fetch writes `pc` alone. -/

@[simp] theorem State.fetch_pc : s.fetch.2.pc = trunc16 (((trunc16 ((s.pc.toNat + 1) % memSize)).toNat + 1) % memSize) := rfl
@[simp] theorem State.fetch_v : s.fetch.2.v = s.v := rfl
@[simp] theorem State.fetch_i : s.fetch.2.i = s.i := rfl
@[simp] theorem State.fetch_stack : s.fetch.2.stack = s.stack := rfl
@[simp] theorem State.fetch_dt : s.fetch.2.dt = s.dt := rfl
@[simp] theorem State.fetch_st : s.fetch.2.st = s.st := rfl
@[simp] theorem State.fetch_fb : s.fetch.2.fb = s.fb := rfl
@[simp] theorem State.fetch_redraw : s.fetch.2.redraw = s.redraw := rfl
@[simp] theorem State.fetch_key : s.fetch.2.key = s.key := rfl
@[simp] theorem State.fetch_mem : s.fetch.2.mem = s.mem := rfl
@[simp] theorem State.fetch_halted : s.fetch.2.halted = s.halted := rfl
@[simp] theorem State.fetch_faultCause : s.fetch.2.faultCause = s.faultCause := rfl
@[simp] theorem State.fetch_params : s.fetch.2.params = s.params := rfl
@[simp] theorem State.fetch_unknownReport : s.fetch.2.unknownReport = s.unknownReport := rfl
@[simp] theorem State.fetch_tickSamples : s.fetch.2.tickSamples = s.tickSamples := rfl
@[simp] theorem State.fetch_randDraws : s.fetch.2.randDraws = s.randDraws := rfl
@[simp] theorem State.fetch_loadable : s.fetch.2.loadable = s.loadable := rfl
@[simp] theorem State.fetch_getV (r : Reg) : s.fetch.2.getV r = s.getV r := rfl
@[simp] theorem State.fetch_memRead (addr : Nat) : s.fetch.2.memRead addr = s.memRead addr := rfl

/-! A register after a write. -/

theorem State.getV_eq (r : Reg) : s.getV r = s.v[r] := rfl

@[simp] theorem State.setV_getV (x r : Reg) (b : Byte) : (s.setV x b).getV r = if x = r then b else s.getV r := by
  simp [State.setV, State.getV, Vector.getElem_set, Fin.ext_iff]

@[simp] theorem State.setVF_getV (r : Reg) (b : Byte) : (s.setVF b).getV r = if vf = r then b else s.getV r :=
  s.setV_getV vf r b

/-- Two register files that agree on every register are equal. -/
theorem State.v_ext (t : State) (h : ∀ r, t.getV r = s.getV r) : t.v = s.v := by
  apply Vector.ext
  intro k hk
  exact h ⟨k, hk⟩

end Sys2Proof.Machine
end

