-- ==== Sys2Proof/Laws/Memory.lean ====
section
/-! SUPPORT. Memory: every operation keeps the canonical form, a read after a write to the same address gives the value
written, and a write leaves every other address alone. -/

namespace Sys2Proof.Machine

theorem Memory.wfFrom_mono {m : Memory} {lo lo' : Nat} (h : Memory.wfFrom lo m = true) (hle : lo' ≤ lo) :
    Memory.wfFrom lo' m = true := by
  cases m with
  | nil => rfl
  | cons c rest =>
    simp only [Memory.wfFrom, Bool.and_eq_true, decide_eq_true_eq] at h ⊢
    exact ⟨⟨⟨by omega, h.1.1.2⟩, h.1.2⟩, h.2⟩

theorem Memory.consCell_wf {rest : Memory} {lo a : Nat} {b : Byte} (h : Memory.wfFrom (a + 1) rest = true) (hlo : lo ≤ a)
    (ha : a < memSize) : Memory.wfFrom lo (Memory.consCell a b rest) = true := by
  unfold Memory.consCell
  split
  · exact Memory.wfFrom_mono h (by omega)
  · next hb => simp [Memory.wfFrom, h, hlo, ha, hb]

theorem Memory.write_wfFrom {m : Memory} {lo a : Nat} {b : Byte} (h : Memory.wfFrom lo m = true) (hlo : lo ≤ a)
    (ha : a < memSize) : Memory.wfFrom lo (Memory.write m a b) = true := by
  induction m generalizing lo with
  | nil => exact Memory.consCell_wf rfl hlo ha
  | cons c rest ih =>
    obtain ⟨k, v⟩ := c
    simp only [Memory.wfFrom, Bool.and_eq_true, decide_eq_true_eq] at h
    obtain ⟨⟨⟨h1, h2⟩, h3⟩, h4⟩ := h
    unfold Memory.write
    split
    · next hak =>
      apply Memory.consCell_wf _ hlo ha
      simp [Memory.wfFrom, h2, h3, h4]
      omega
    · split
      · next hak => subst hak; exact Memory.consCell_wf h4 hlo ha
      · simp [Memory.wfFrom, h1, h2, h3]
        exact ih h4 (by omega)

/-- A write keeps the canonical form. -/
theorem Memory.write_wf {m : Memory} {a : Nat} {b : Byte} (h : Memory.wf m = true) (ha : a < memSize) :
    Memory.wf (Memory.write m a b) = true :=
  Memory.write_wfFrom h (Nat.zero_le a) ha

theorem Memory.read_of_lt {m : Memory} {lo a : Nat} (h : Memory.wfFrom lo m = true) (ha : a < lo) :
    Memory.read m a = unlistedByte a := by
  induction m generalizing lo with
  | nil => rfl
  | cons c rest ih =>
    obtain ⟨k, v⟩ := c
    simp only [Memory.wfFrom, Bool.and_eq_true, decide_eq_true_eq] at h
    unfold Memory.read
    rw [if_neg (by omega)]
    exact ih h.2 (by omega)

theorem Memory.read_consCell_ne {rest : Memory} {a a' : Nat} {b : Byte} (h : a' ≠ a) :
    Memory.read (Memory.consCell a b rest) a' = Memory.read rest a' := by
  unfold Memory.consCell
  split
  · rfl
  · simp [Memory.read, h.symm]

theorem Memory.read_consCell_self {rest : Memory} {a : Nat} {b : Byte} (h : Memory.wfFrom (a + 1) rest = true) :
    Memory.read (Memory.consCell a b rest) a = b := by
  unfold Memory.consCell
  split
  · next hb => rw [Memory.read_of_lt h (by omega), hb]
  · simp [Memory.read]

/-- A write leaves every other address alone, in canonical form or not. -/
theorem Memory.read_write_ne {m : Memory} {a a' : Nat} {b : Byte} (h : a' ≠ a) :
    Memory.read (Memory.write m a b) a' = Memory.read m a' := by
  induction m with
  | nil => exact Memory.read_consCell_ne h
  | cons c rest ih =>
    obtain ⟨k, v⟩ := c
    unfold Memory.write
    split
    · exact Memory.read_consCell_ne h
    · split
      · next hak =>
        subst hak
        rw [Memory.read_consCell_ne h]
        simp [Memory.read, h.symm]
      · simp [Memory.read, ih]

theorem Memory.read_write_selfFrom {m : Memory} {lo a : Nat} {b : Byte} (h : Memory.wfFrom lo m = true) :
    Memory.read (Memory.write m a b) a = b := by
  induction m generalizing lo with
  | nil => exact Memory.read_consCell_self rfl
  | cons c rest ih =>
    obtain ⟨k, v⟩ := c
    simp only [Memory.wfFrom, Bool.and_eq_true, decide_eq_true_eq] at h
    obtain ⟨⟨⟨h1, h2⟩, h3⟩, h4⟩ := h
    unfold Memory.write
    split
    · next hak =>
      apply Memory.read_consCell_self
      simp [Memory.wfFrom, h2, h3, h4]
      omega
    · split
      · next hak => subst hak; exact Memory.read_consCell_self h4
      · next hne =>
        simp only [Memory.read]
        rw [if_neg (by omega)]
        exact ih h4

/-- A read after a write to the same address gives the value written. -/
theorem Memory.read_write_self {m : Memory} {a : Nat} {b : Byte} (h : Memory.wf m = true) :
    Memory.read (Memory.write m a b) a = b :=
  Memory.read_write_selfFrom h

theorem mod_memSize_lt (a : Nat) : a % memSize < memSize := Nat.mod_lt _ (by decide)

/-- `MemWrite` keeps the canonical form. -/
theorem State.memWrite_wf {s : State} {a : Nat} {b : Byte} (h : Memory.wf s.mem = true) :
    Memory.wf (s.memWrite a b).mem = true :=
  Memory.write_wf h (mod_memSize_lt a)

/-- `MemRead` after `MemWrite`: the same byte if the addresses agree modulo 4096, else what was there. -/
theorem State.memRead_memWrite {s : State} {a a' : Nat} {b : Byte} (h : Memory.wf s.mem = true) :
    (s.memWrite a b).memRead a' = if a' % memSize = a % memSize then b else s.memRead a' := by
  unfold State.memRead State.memWrite
  split
  · next he => simp only [he]; exact Memory.read_write_self h
  · next he => exact Memory.read_write_ne he

/-- `MemWrite` leaves every other address alone, in canonical form or not. -/
theorem State.memRead_memWrite_ne {s : State} {a a' : Nat} {b : Byte} (h : a' % memSize ≠ a % memSize) :
    (s.memWrite a b).memRead a' = s.memRead a' :=
  Memory.read_write_ne h

/-- Storing a list of bytes writes memory alone. -/
theorem State.storeBytes_eq (s : State) (a : Nat) (bs : List Byte) :
    s.storeBytes a bs = { s with mem := (s.storeBytes a bs).mem } := by
  induction bs generalizing s a with
  | nil => rfl
  | cons b rest ih => exact ih (s.memWrite a b) (a + 1)

/-- Storing a list of bytes keeps the canonical form. -/
theorem State.storeBytes_wf {s : State} {a : Nat} {bs : List Byte} (h : Memory.wf s.mem = true) :
    Memory.wf (s.storeBytes a bs).mem = true := by
  induction bs generalizing s a with
  | nil => exact h
  | cons b rest ih => exact ih (State.memWrite_wf h)

/-- Storing a list of bytes leaves every address it does not name. -/
theorem State.memRead_storeBytes_ne {s : State} {a a' : Nat} {bs : List Byte}
    (h : ∀ k < bs.length, a' % memSize ≠ (a + k) % memSize) : (s.storeBytes a bs).memRead a' = s.memRead a' := by
  induction bs generalizing s a with
  | nil => rfl
  | cons b rest ih =>
    rw [State.storeBytes, ih]
    · exact State.memRead_memWrite_ne (by simpa using h 0 (by simp))
    · intro k hk
      have := h (k + 1) (by simpa using hk)
      rwa [show a + 1 + k = a + (k + 1) by omega]

/-- A list of bytes no longer than memory reads back where it was stored. -/
theorem State.memRead_storeBytes {s : State} {a k : Nat} {bs : List Byte} (hwf : Memory.wf s.mem = true)
    (hlen : bs.length ≤ memSize) (hk : k < bs.length) : (s.storeBytes a bs).memRead (a + k) = bs[k] := by
  induction bs generalizing s a k with
  | nil => simp at hk
  | cons b rest ih =>
    rw [State.storeBytes]
    cases k with
    | zero =>
      rw [State.memRead_storeBytes_ne]
      · rw [State.memRead_memWrite hwf]; simp
      · intro j hj
        simp only [memSize] at hlen ⊢
        simp only [List.length_cons] at hlen
        omega
    | succ k =>
      have := ih (s := s.memWrite a b) (a := a + 1) (k := k) (State.memWrite_wf hwf)
        (by simp only [List.length_cons] at hlen; omega) (by simpa using hk)
      rw [show a + (k + 1) = a + 1 + k by omega]
      simpa using this

end Sys2Proof.Machine
end

