-- ==== Sys2Proof/Laws/Operations.lean ====
section
/-! SUPPORT. One lemma per shared operation that says once everything it can do: the skip, the fetch, the copy of a shift,
the block transfers, the pixel write and the sprite loops. -/

namespace Sys2Proof.Machine

@[simp] theorem trunc16_toNat (n : Nat) : (trunc16 n).toNat = n % 65536 := by simp [trunc16]

@[simp] theorem trunc8_toNat (n : Nat) : (trunc8 n).toNat = n % 256 := by simp [trunc8]

/-- A conditional skip writes `pc` alone: `pc + 2` modulo 2^16 when the condition holds. -/
theorem State.skipIf_eq (s : State) (c : Bool) : s.skipIf c = s.setPc (if c then trunc16 (s.pc.toNat + 2) else s.pc) := by
  cases c <;> rfl

/-- The value of `pc` after a fetch: advanced by 2 modulo 4096. -/
theorem State.fetch_pc_toNat (s : State) : s.fetch.2.pc.toNat = (s.pc.toNat + 2) % memSize := by
  rw [State.fetch_pc]
  simp only [trunc16_toNat, memSize]
  omega

/-- The word a fetch reads: the byte at `pc` above the byte at `pc + 1`. -/
theorem State.fetch_word (s : State) :
    s.fetch.1 = wordOfBytes (s.memRead s.pc.toNat) (s.memRead (s.pc.toNat + 1)) := by
  have h : ∀ a, s.memRead (trunc16 (a % memSize)).toNat = s.memRead a := by
    intro a
    simp only [State.memRead, trunc16_toNat, memSize]
    congr 1
    omega
  show wordOfBytes (s.memRead s.pc.toNat) (s.memRead (trunc16 ((s.pc.toNat + 1) % memSize)).toNat) = _
  rw [h]

/-- A due tick lowers a timer by one and stops at zero; otherwise the timer stays. -/
theorem countdown_toNat (due : Bool) (t : Byte) : (countdown due t).toNat = if due then t.toNat - 1 else t.toNat := by
  unfold countdown
  split
  · next h => subst h; simp
  · next h =>
    cases due
    · simp
    · have : t.toNat ≠ 0 := fun e => h (BitVec.eq_of_toNat_eq (by simpa using e))
      have := t.isLt
      simp only [if_true, BitVec.toNat_sub]
      simp
      omega

/-- The copy of a shift writes `V[x]` alone. -/
theorem State.copyForShift_eq (s : State) (x y : Reg) :
    s.copyForShift x y = s.setV x (if s.params.shiftUsesY then s.getV y else s.getV x) := by
  unfold State.copyForShift
  split
  · rfl
  · have h : (s.setV x (s.getV x)).v = s.v := State.v_ext s _ fun r => by
      rw [State.setV_getV]
      split
      · next he => rw [he]
      · rfl
    show s = { s with v := (s.setV x (s.getV x)).v }
    rw [h]

/-- The key index of SKP and SKNP: a key while `V[x] ≤ 15`, none above. -/
theorem State.keyAt?_eq (s : State) (x : Reg) :
    s.keyAt? x = if h : (s.getV x).toNat < 16 then some (s.key[(s.getV x).toNat]'h) else none := rfl

/-- `I` after Fx55 or Fx65, while the exact sum fits 16 bits. -/
theorem State.advanceI_eq {s : State} {x : Reg}
    (h : s.i.toNat + indexInc s.params.loadStoreIMode x < 65536) :
    s.advanceI x = s.setI (trunc16 (s.i.toNat + indexInc s.params.loadStoreIMode x)) := by
  simp [State.advanceI, h]

/-- Advancing `I` writes `I` alone. -/
theorem State.advanceI_frame (s : State) (x : Reg) : s.advanceI x = { s with i := (s.advanceI x).i } := rfl

/-- How far `I` advances at most. -/
theorem indexInc_le (m : LoadStoreIMode) (x : Reg) : indexInc m x ≤ 16 := by
  have := x.isLt
  cases m <;> simp only [indexInc] <;> omega

/-- The register store writes memory alone. -/
theorem State.storeRegs_eq (s : State) (m : Nat) : s.storeRegs m = { s with mem := (s.storeRegs m).mem } := by
  induction m with
  | zero => rfl
  | succ m ih =>
    unfold State.storeRegs at ih ⊢
    rw [List.range_succ, List.foldl_append, List.foldl_cons, List.foldl_nil, ih]
    rfl

/-- The register store, one register more. -/
theorem State.storeRegs_succ (s : State) (m : Nat) :
    s.storeRegs (m + 1) = (s.storeRegs m).memWrite (s.i.toNat + m) (s.getV (Fin.ofNat 16 m)) := by
  have h := State.storeRegs_eq s m
  unfold State.storeRegs at h ⊢
  rw [List.range_succ, List.foldl_append, List.foldl_cons, List.foldl_nil, h]
  rfl

/-- The register store keeps the canonical form. -/
theorem State.storeRegs_wf {s : State} (h : Memory.wf s.mem = true) (m : Nat) : Memory.wf (s.storeRegs m).mem = true := by
  induction m with
  | zero => exact h
  | succ m ih => rw [State.storeRegs_succ]; exact State.memWrite_wf ih

/-- The register load, one register more. -/
theorem State.loadRegs_eq (s : State) (m : Nat) : s.loadRegs m = { s with v := (s.loadRegs m).v } := by
  induction m with
  | zero => rfl
  | succ m ih =>
    unfold State.loadRegs at ih ⊢
    rw [List.range_succ, List.foldl_append, List.foldl_cons, List.foldl_nil, ih]
    rfl

/-- The register load, one register more. -/
theorem State.loadRegs_succ (s : State) (m : Nat) :
    s.loadRegs (m + 1) = (s.loadRegs m).setV (Fin.ofNat 16 m) (s.memRead (s.i.toNat + m)) := by
  have h := State.loadRegs_eq s m
  unfold State.loadRegs at h ⊢
  rw [List.range_succ, List.foldl_append, List.foldl_cons, List.foldl_nil, h]
  rfl

/-- A pixel after a flip. -/
theorem Framebuffer.pixel_flip (f : Framebuffer) (row row' : Fin 32) (col col' : Fin 64) :
    (f.flip row col).pixel row' col' = if row = row' ∧ col = col' then !f.pixel row' col' else f.pixel row' col' := by
  obtain ⟨r, hr⟩ := row
  obtain ⟨r', hr'⟩ := row'
  obtain ⟨c, hc⟩ := col
  obtain ⟨c', hc'⟩ := col'
  simp only [Framebuffer.pixel, Framebuffer.flip, Fin.getElem_fin, Vector.getElem_set, Fin.mk.injEq]
  by_cases h : r = r'
  · subst h
    by_cases h2 : c = c'
    · subst h2; simp
    · simp [h2]
  · simp [h]

/-- A cleared framebuffer is off everywhere. -/
theorem Framebuffer.pixel_clear (row : Fin 32) (col : Fin 64) : Framebuffer.clear.pixel row col = false := by
  simp [Framebuffer.pixel, Framebuffer.clear]

/-- Two framebuffers that agree on every pixel are equal. -/
theorem Framebuffer.ext_pixel {f g : Framebuffer} (h : ∀ row col, f.pixel row col = g.pixel row col) : f = g := by
  apply Vector.ext
  intro r hr
  apply Vector.ext
  intro c hc
  exact h ⟨r, hr⟩ ⟨c, hc⟩

/-- A pixel write changes VF and the framebuffer alone. -/
theorem State.plot_frame (s : State) (px py : Nat) :
    s.plot px py = { s with v := (s.plot px py).v, fb := (s.plot px py).fb } := by
  unfold State.plot
  split
  · dsimp only
    split <;> rfl
  · rfl

/-- A pixel write leaves every register but VF. -/
theorem State.plot_getV (s : State) (px py : Nat) {r : Reg} (h : r ≠ vf) : (s.plot px py).getV r = s.getV r := by
  unfold State.plot
  split
  · dsimp only
    split <;> simp [h.symm]
  · rfl

/-- The pixels after a pixel write: the one named flips if it is inside the grid. -/
theorem State.plot_pixel (s : State) (px py : Nat) (row : Fin 32) (col : Fin 64) :
    (s.plot px py).fb.pixel row col =
      if py = row.val ∧ px = col.val then !s.fb.pixel row col else s.fb.pixel row col := by
  unfold State.plot
  split
  · dsimp only
    rw [State.setFb_fb, Framebuffer.pixel_flip]
    simp [Fin.ext_iff]
  · next h =>
    rw [if_neg]
    rintro ⟨rfl, rfl⟩
    exact h ⟨row.isLt, col.isLt⟩

/-- VF after a pixel write: 1 if the pixel named is inside the grid and was on, else what it was. -/
theorem State.plot_vf (s : State) (px py : Nat) :
    (s.plot px py).getV vf =
      if ∃ h : py < 32 ∧ px < 64, s.fb.pixel ⟨py, h.1⟩ ⟨px, h.2⟩ = true then 1 else s.getV vf := by
  unfold State.plot
  split
  · next h =>
    dsimp only
    split
    · next hp => rw [if_pos ⟨h, hp⟩]; simp
    · next hp =>
      rw [if_neg]
      · rfl
      · rintro ⟨_, hq⟩; exact hp hq
  · next h =>
    rw [if_neg]
    rintro ⟨hq, _⟩
    exact h hq

/-- A fold of updates that each change only VF and the framebuffer changes only those. -/
theorem foldl_frame {α : Type} (f : State → α → State)
    (hf : ∀ t a, f t a = { t with v := (f t a).v, fb := (f t a).fb } ∧ ∀ r ≠ vf, (f t a).getV r = t.getV r)
    (l : List α) (s : State) :
    l.foldl f s = { s with v := (l.foldl f s).v, fb := (l.foldl f s).fb } ∧
      ∀ r ≠ vf, (l.foldl f s).getV r = s.getV r := by
  induction l generalizing s with
  | nil => exact ⟨rfl, fun _ _ => rfl⟩
  | cons a rest ih =>
    rw [List.foldl_cons]
    have h := ih (f s a)
    have h' := hf s a
    refine ⟨?_, fun r hr => (h.2 r hr).trans (h'.2 r hr)⟩
    have e := h.1
    rw [h'.1] at e ⊢
    exact e

/-- One sprite byte changes VF and the framebuffer alone, and no register but VF. -/
theorem State.plotByte_frame (s : State) (b : Byte) (sx py : Nat) :
    s.plotByte b sx py = { s with v := (s.plotByte b sx py).v, fb := (s.plotByte b sx py).fb } ∧
      ∀ r ≠ vf, (s.plotByte b sx py).getV r = s.getV r := by
  apply foldl_frame
  intro t c
  split
  · exact ⟨t.plot_frame _ _, fun r hr => t.plot_getV _ _ hr⟩
  · exact ⟨rfl, fun _ _ => rfl⟩

/-- The sprite loop changes VF and the framebuffer alone, and no register but VF. -/
theorem State.plotRows_frame (s : State) (n sx sy : Nat) :
    s.plotRows n sx sy = { s with v := (s.plotRows n sx sy).v, fb := (s.plotRows n sx sy).fb } ∧
      ∀ r ≠ vf, (s.plotRows n sx sy).getV r = s.getV r := by
  apply foldl_frame
  intro t r
  exact t.plotByte_frame _ _ _

end Sys2Proof.Machine
end

