-- ==== Sys2Proof/Laws/Step.lean ====
section
/-! SUPPORT. What a step can do, said once: it has no step when halted, and otherwise it is the handler of the fetched word
on the state after the fetch and the tick. -/

namespace Sys2Proof.Machine

/-- The state a step hands to the handler. -/
def State.beforeHandler (s : State) (due : Bool) : State := s.beginStep.fetch.2.tick due

theorem stepWith_halted {s : State} (due : Bool) (h : s.halted = true) : stepWith due s = .fault .halted := by
  simp [stepWith, h]

theorem stepWith_running {s : State} (due : Bool) (h : s.halted = false) :
    stepWith due s = exec (decode s.fetch.1) (s.beforeHandler due) := by
  simp only [stepWith, h]
  rfl

/-- Every next state of a step comes from the handler, run on a state that is not halted. -/
theorem step_cases {s t : State} (h : step s = .next t) :
    s.halted = false ∧ exec (decode s.fetch.1) (s.beforeHandler (Config.tickDue s.tickSamples)) = .next t := by
  cases hh : s.halted with
  | true => rw [step, stepWith_halted _ hh] at h; exact absurd h (by simp)
  | false => rw [step, stepWith_running _ hh] at h; exact ⟨rfl, h⟩

end Sys2Proof.Machine
end

