-- ==== Sys2Proof/Laws/Handlers.lean ====
section
/-! SUPPORT. What a handler can do, said once: for each instruction the next states it can answer. Proofs about every
instruction split on this and unfold no meaning. And, field by field, what the block operations leave alone. -/

namespace Sys2Proof.Machine

variable (s : State)

/-! `State.skipIf` -/

@[simp] theorem State.skipIf_v (c : Bool) : (s.skipIf c).v = s.v := by rw [State.skipIf_eq]; rfl
@[simp] theorem State.skipIf_i (c : Bool) : (s.skipIf c).i = s.i := by rw [State.skipIf_eq]; rfl
@[simp] theorem State.skipIf_stack (c : Bool) : (s.skipIf c).stack = s.stack := by rw [State.skipIf_eq]; rfl
@[simp] theorem State.skipIf_dt (c : Bool) : (s.skipIf c).dt = s.dt := by rw [State.skipIf_eq]; rfl
@[simp] theorem State.skipIf_st (c : Bool) : (s.skipIf c).st = s.st := by rw [State.skipIf_eq]; rfl
@[simp] theorem State.skipIf_fb (c : Bool) : (s.skipIf c).fb = s.fb := by rw [State.skipIf_eq]; rfl
@[simp] theorem State.skipIf_redraw (c : Bool) : (s.skipIf c).redraw = s.redraw := by rw [State.skipIf_eq]; rfl
@[simp] theorem State.skipIf_key (c : Bool) : (s.skipIf c).key = s.key := by rw [State.skipIf_eq]; rfl
@[simp] theorem State.skipIf_mem (c : Bool) : (s.skipIf c).mem = s.mem := by rw [State.skipIf_eq]; rfl
@[simp] theorem State.skipIf_halted (c : Bool) : (s.skipIf c).halted = s.halted := by rw [State.skipIf_eq]; rfl
@[simp] theorem State.skipIf_faultCause (c : Bool) : (s.skipIf c).faultCause = s.faultCause := by rw [State.skipIf_eq]; rfl
@[simp] theorem State.skipIf_params (c : Bool) : (s.skipIf c).params = s.params := by rw [State.skipIf_eq]; rfl
@[simp] theorem State.skipIf_unknownReport (c : Bool) : (s.skipIf c).unknownReport = s.unknownReport := by rw [State.skipIf_eq]; rfl
@[simp] theorem State.skipIf_tickSamples (c : Bool) : (s.skipIf c).tickSamples = s.tickSamples := by rw [State.skipIf_eq]; rfl
@[simp] theorem State.skipIf_randDraws (c : Bool) : (s.skipIf c).randDraws = s.randDraws := by rw [State.skipIf_eq]; rfl
@[simp] theorem State.skipIf_loadable (c : Bool) : (s.skipIf c).loadable = s.loadable := by rw [State.skipIf_eq]; rfl

/-! `State.advanceI` -/

@[simp] theorem State.advanceI_v (x : Reg) : (s.advanceI x).v = s.v := rfl
@[simp] theorem State.advanceI_pc (x : Reg) : (s.advanceI x).pc = s.pc := rfl
@[simp] theorem State.advanceI_stack (x : Reg) : (s.advanceI x).stack = s.stack := rfl
@[simp] theorem State.advanceI_dt (x : Reg) : (s.advanceI x).dt = s.dt := rfl
@[simp] theorem State.advanceI_st (x : Reg) : (s.advanceI x).st = s.st := rfl
@[simp] theorem State.advanceI_fb (x : Reg) : (s.advanceI x).fb = s.fb := rfl
@[simp] theorem State.advanceI_redraw (x : Reg) : (s.advanceI x).redraw = s.redraw := rfl
@[simp] theorem State.advanceI_key (x : Reg) : (s.advanceI x).key = s.key := rfl
@[simp] theorem State.advanceI_mem (x : Reg) : (s.advanceI x).mem = s.mem := rfl
@[simp] theorem State.advanceI_halted (x : Reg) : (s.advanceI x).halted = s.halted := rfl
@[simp] theorem State.advanceI_faultCause (x : Reg) : (s.advanceI x).faultCause = s.faultCause := rfl
@[simp] theorem State.advanceI_params (x : Reg) : (s.advanceI x).params = s.params := rfl
@[simp] theorem State.advanceI_unknownReport (x : Reg) : (s.advanceI x).unknownReport = s.unknownReport := rfl
@[simp] theorem State.advanceI_tickSamples (x : Reg) : (s.advanceI x).tickSamples = s.tickSamples := rfl
@[simp] theorem State.advanceI_randDraws (x : Reg) : (s.advanceI x).randDraws = s.randDraws := rfl
@[simp] theorem State.advanceI_loadable (x : Reg) : (s.advanceI x).loadable = s.loadable := rfl

/-! `State.storeRegs` -/

@[simp] theorem State.storeRegs_v (m : Nat) : (s.storeRegs m).v = s.v := by rw [State.storeRegs_eq]
@[simp] theorem State.storeRegs_i (m : Nat) : (s.storeRegs m).i = s.i := by rw [State.storeRegs_eq]
@[simp] theorem State.storeRegs_pc (m : Nat) : (s.storeRegs m).pc = s.pc := by rw [State.storeRegs_eq]
@[simp] theorem State.storeRegs_stack (m : Nat) : (s.storeRegs m).stack = s.stack := by rw [State.storeRegs_eq]
@[simp] theorem State.storeRegs_dt (m : Nat) : (s.storeRegs m).dt = s.dt := by rw [State.storeRegs_eq]
@[simp] theorem State.storeRegs_st (m : Nat) : (s.storeRegs m).st = s.st := by rw [State.storeRegs_eq]
@[simp] theorem State.storeRegs_fb (m : Nat) : (s.storeRegs m).fb = s.fb := by rw [State.storeRegs_eq]
@[simp] theorem State.storeRegs_redraw (m : Nat) : (s.storeRegs m).redraw = s.redraw := by rw [State.storeRegs_eq]
@[simp] theorem State.storeRegs_key (m : Nat) : (s.storeRegs m).key = s.key := by rw [State.storeRegs_eq]
@[simp] theorem State.storeRegs_halted (m : Nat) : (s.storeRegs m).halted = s.halted := by rw [State.storeRegs_eq]
@[simp] theorem State.storeRegs_faultCause (m : Nat) : (s.storeRegs m).faultCause = s.faultCause := by rw [State.storeRegs_eq]
@[simp] theorem State.storeRegs_params (m : Nat) : (s.storeRegs m).params = s.params := by rw [State.storeRegs_eq]
@[simp] theorem State.storeRegs_unknownReport (m : Nat) : (s.storeRegs m).unknownReport = s.unknownReport := by rw [State.storeRegs_eq]
@[simp] theorem State.storeRegs_tickSamples (m : Nat) : (s.storeRegs m).tickSamples = s.tickSamples := by rw [State.storeRegs_eq]
@[simp] theorem State.storeRegs_randDraws (m : Nat) : (s.storeRegs m).randDraws = s.randDraws := by rw [State.storeRegs_eq]
@[simp] theorem State.storeRegs_loadable (m : Nat) : (s.storeRegs m).loadable = s.loadable := by rw [State.storeRegs_eq]

/-! `State.loadRegs` -/

@[simp] theorem State.loadRegs_i (m : Nat) : (s.loadRegs m).i = s.i := by rw [State.loadRegs_eq]
@[simp] theorem State.loadRegs_pc (m : Nat) : (s.loadRegs m).pc = s.pc := by rw [State.loadRegs_eq]
@[simp] theorem State.loadRegs_stack (m : Nat) : (s.loadRegs m).stack = s.stack := by rw [State.loadRegs_eq]
@[simp] theorem State.loadRegs_dt (m : Nat) : (s.loadRegs m).dt = s.dt := by rw [State.loadRegs_eq]
@[simp] theorem State.loadRegs_st (m : Nat) : (s.loadRegs m).st = s.st := by rw [State.loadRegs_eq]
@[simp] theorem State.loadRegs_fb (m : Nat) : (s.loadRegs m).fb = s.fb := by rw [State.loadRegs_eq]
@[simp] theorem State.loadRegs_redraw (m : Nat) : (s.loadRegs m).redraw = s.redraw := by rw [State.loadRegs_eq]
@[simp] theorem State.loadRegs_key (m : Nat) : (s.loadRegs m).key = s.key := by rw [State.loadRegs_eq]
@[simp] theorem State.loadRegs_mem (m : Nat) : (s.loadRegs m).mem = s.mem := by rw [State.loadRegs_eq]
@[simp] theorem State.loadRegs_halted (m : Nat) : (s.loadRegs m).halted = s.halted := by rw [State.loadRegs_eq]
@[simp] theorem State.loadRegs_faultCause (m : Nat) : (s.loadRegs m).faultCause = s.faultCause := by rw [State.loadRegs_eq]
@[simp] theorem State.loadRegs_params (m : Nat) : (s.loadRegs m).params = s.params := by rw [State.loadRegs_eq]
@[simp] theorem State.loadRegs_unknownReport (m : Nat) : (s.loadRegs m).unknownReport = s.unknownReport := by rw [State.loadRegs_eq]
@[simp] theorem State.loadRegs_tickSamples (m : Nat) : (s.loadRegs m).tickSamples = s.tickSamples := by rw [State.loadRegs_eq]
@[simp] theorem State.loadRegs_randDraws (m : Nat) : (s.loadRegs m).randDraws = s.randDraws := by rw [State.loadRegs_eq]
@[simp] theorem State.loadRegs_loadable (m : Nat) : (s.loadRegs m).loadable = s.loadable := by rw [State.loadRegs_eq]

/-! `State.storeBytes` -/

@[simp] theorem State.storeBytes_v (a : Nat) (bs : List Byte) : (s.storeBytes a bs).v = s.v := by rw [State.storeBytes_eq]
@[simp] theorem State.storeBytes_i (a : Nat) (bs : List Byte) : (s.storeBytes a bs).i = s.i := by rw [State.storeBytes_eq]
@[simp] theorem State.storeBytes_pc (a : Nat) (bs : List Byte) : (s.storeBytes a bs).pc = s.pc := by rw [State.storeBytes_eq]
@[simp] theorem State.storeBytes_stack (a : Nat) (bs : List Byte) : (s.storeBytes a bs).stack = s.stack := by rw [State.storeBytes_eq]
@[simp] theorem State.storeBytes_dt (a : Nat) (bs : List Byte) : (s.storeBytes a bs).dt = s.dt := by rw [State.storeBytes_eq]
@[simp] theorem State.storeBytes_st (a : Nat) (bs : List Byte) : (s.storeBytes a bs).st = s.st := by rw [State.storeBytes_eq]
@[simp] theorem State.storeBytes_fb (a : Nat) (bs : List Byte) : (s.storeBytes a bs).fb = s.fb := by rw [State.storeBytes_eq]
@[simp] theorem State.storeBytes_redraw (a : Nat) (bs : List Byte) : (s.storeBytes a bs).redraw = s.redraw := by rw [State.storeBytes_eq]
@[simp] theorem State.storeBytes_key (a : Nat) (bs : List Byte) : (s.storeBytes a bs).key = s.key := by rw [State.storeBytes_eq]
@[simp] theorem State.storeBytes_halted (a : Nat) (bs : List Byte) : (s.storeBytes a bs).halted = s.halted := by rw [State.storeBytes_eq]
@[simp] theorem State.storeBytes_faultCause (a : Nat) (bs : List Byte) : (s.storeBytes a bs).faultCause = s.faultCause := by rw [State.storeBytes_eq]
@[simp] theorem State.storeBytes_params (a : Nat) (bs : List Byte) : (s.storeBytes a bs).params = s.params := by rw [State.storeBytes_eq]
@[simp] theorem State.storeBytes_unknownReport (a : Nat) (bs : List Byte) : (s.storeBytes a bs).unknownReport = s.unknownReport := by rw [State.storeBytes_eq]
@[simp] theorem State.storeBytes_tickSamples (a : Nat) (bs : List Byte) : (s.storeBytes a bs).tickSamples = s.tickSamples := by rw [State.storeBytes_eq]
@[simp] theorem State.storeBytes_randDraws (a : Nat) (bs : List Byte) : (s.storeBytes a bs).randDraws = s.randDraws := by rw [State.storeBytes_eq]
@[simp] theorem State.storeBytes_loadable (a : Nat) (bs : List Byte) : (s.storeBytes a bs).loadable = s.loadable := by rw [State.storeBytes_eq]

/-! `State.plotRows` -/

@[simp] theorem State.plotRows_i (n sx sy : Nat) : (s.plotRows n sx sy).i = s.i := by rw [(State.plotRows_frame s n sx sy).1]
@[simp] theorem State.plotRows_pc (n sx sy : Nat) : (s.plotRows n sx sy).pc = s.pc := by rw [(State.plotRows_frame s n sx sy).1]
@[simp] theorem State.plotRows_stack (n sx sy : Nat) : (s.plotRows n sx sy).stack = s.stack := by rw [(State.plotRows_frame s n sx sy).1]
@[simp] theorem State.plotRows_dt (n sx sy : Nat) : (s.plotRows n sx sy).dt = s.dt := by rw [(State.plotRows_frame s n sx sy).1]
@[simp] theorem State.plotRows_st (n sx sy : Nat) : (s.plotRows n sx sy).st = s.st := by rw [(State.plotRows_frame s n sx sy).1]
@[simp] theorem State.plotRows_redraw (n sx sy : Nat) : (s.plotRows n sx sy).redraw = s.redraw := by rw [(State.plotRows_frame s n sx sy).1]
@[simp] theorem State.plotRows_key (n sx sy : Nat) : (s.plotRows n sx sy).key = s.key := by rw [(State.plotRows_frame s n sx sy).1]
@[simp] theorem State.plotRows_mem (n sx sy : Nat) : (s.plotRows n sx sy).mem = s.mem := by rw [(State.plotRows_frame s n sx sy).1]
@[simp] theorem State.plotRows_halted (n sx sy : Nat) : (s.plotRows n sx sy).halted = s.halted := by rw [(State.plotRows_frame s n sx sy).1]
@[simp] theorem State.plotRows_faultCause (n sx sy : Nat) : (s.plotRows n sx sy).faultCause = s.faultCause := by rw [(State.plotRows_frame s n sx sy).1]
@[simp] theorem State.plotRows_params (n sx sy : Nat) : (s.plotRows n sx sy).params = s.params := by rw [(State.plotRows_frame s n sx sy).1]
@[simp] theorem State.plotRows_unknownReport (n sx sy : Nat) : (s.plotRows n sx sy).unknownReport = s.unknownReport := by rw [(State.plotRows_frame s n sx sy).1]
@[simp] theorem State.plotRows_tickSamples (n sx sy : Nat) : (s.plotRows n sx sy).tickSamples = s.tickSamples := by rw [(State.plotRows_frame s n sx sy).1]
@[simp] theorem State.plotRows_randDraws (n sx sy : Nat) : (s.plotRows n sx sy).randDraws = s.randDraws := by rw [(State.plotRows_frame s n sx sy).1]
@[simp] theorem State.plotRows_loadable (n sx sy : Nat) : (s.plotRows n sx sy).loadable = s.loadable := by rw [(State.plotRows_frame s n sx sy).1]

/-- A register after the register load. -/
theorem State.loadRegs_getV {m : Nat} (hm : m ≤ 16) (r : Reg) :
    (s.loadRegs m).getV r = if r.val < m then s.memRead (s.i.toNat + r.val) else s.getV r := by
  induction m with
  | zero => simp; rfl
  | succ m ih =>
    rw [State.loadRegs_succ, State.setV_getV, ih (by omega)]
    have hval : (Fin.ofNat 16 m).val = m := by simp [Fin.ofNat]; omega
    by_cases h : Fin.ofNat 16 m = r
    · have e : r.val = m := by rw [← h]; exact hval
      rw [if_pos h, if_pos (by omega), e]
    · rw [if_neg h]
      have hne : r.val ≠ m := fun e => h (Fin.ext (by omega))
      by_cases h3 : r.val < m
      · rw [if_pos h3, if_pos (by omega)]
      · rw [if_neg h3, if_neg (by omega)]

/-- The register store leaves every address it does not name. -/
theorem State.memRead_storeRegs_ne {m a : Nat} (h : ∀ k < m, a % memSize ≠ (s.i.toNat + k) % memSize) :
    (s.storeRegs m).memRead a = s.memRead a := by
  induction m with
  | zero => rfl
  | succ m ih =>
    rw [State.storeRegs_succ, State.memRead_memWrite_ne (h m (by omega)), ih (fun k hk => h k (by omega))]

/-- A byte after the register store, at an address it names. -/
theorem State.memRead_storeRegs {m : Nat} (hm : m ≤ 16) (hwf : Memory.wf s.mem = true) {k : Reg} (hk : k.val < m) :
    (s.storeRegs m).memRead (s.i.toNat + k.val) = s.getV k := by
  induction m with
  | zero => omega
  | succ m ih =>
    rw [State.storeRegs_succ, State.memRead_memWrite (State.storeRegs_wf hwf _)]
    by_cases e : k.val = m
    · rw [if_pos (by rw [e])]; congr 1; apply Fin.ext; simp; omega
    · rw [if_neg (by simp [memSize]; omega)]; exact ih (by omega) (by omega)

/-- The next states the handler of `i` can answer from `s`. -/
def HandlerNext (i : Instr) (s t : State) : Prop :=
  match i with
  | .cls => t = (s.setFb Framebuffer.clear).setRedraw true
  | .ret => (s.stack = [] ∧ t = s.raiseFault .stackUnderflow) ∨ (∃ r w, s.stack = r ++ [w] ∧ t = (s.setStack r).setPc w)
  | .jp nnn => t = s.setPc (zext16 nnn)
  | .call nnn => (s.params.stackDepth = some s.stack.length ∧ t = s.raiseFault .stackOverflow) ∨ (s.params.stackDepth ≠ some s.stack.length ∧ t = (s.push s.pc).setPc (zext16 nnn))
  | .seImm x nn => t = s.skipIf (s.getV x == nn)
  | .sneImm x nn => t = s.skipIf (s.getV x != nn)
  | .seReg x y => t = s.skipIf (s.getV x == s.getV y)
  | .sneReg x y => t = s.skipIf (s.getV x != s.getV y)
  | .ldImm x nn => t = s.setV x nn
  | .addImm x nn => t = s.setV x (addResult (s.getV x) nn)
  | .ldReg x y => t = s.setV x (s.getV y)
  | .orReg x y => t = s.setV x (s.getV x ||| s.getV y)
  | .andReg x y => t = s.setV x (s.getV x &&& s.getV y)
  | .xorReg x y => t = s.setV x (s.getV x ^^^ s.getV y)
  | .addReg x y => t = (s.setV x (addResult (s.getV x) (s.getV y))).setVF (carryFlag (s.getV x) (s.getV y))
  | .subReg x y => t = (s.setV x (subResult (s.getV x) (s.getV y))).setVF (noBorrowFlag (s.getV x) (s.getV y))
  | .subnReg x y => t = (s.setV x (subResult (s.getV y) (s.getV x))).setVF (noBorrowFlag (s.getV y) (s.getV x))
  | .shr x _ => ∃ a b c, t = ((s.setV x a).setVF b).setV x c
  | .shl x _ => ∃ a b c, t = ((s.setV x a).setVF b).setV x c
  | .rnd x _ => ∃ b, t = {s.setV x b with randDraws := s.randDraws + 1}
  | .ldI nnn => t = s.setI (zext16 nnn)
  | .jpV0 nnn => t = s.setPc (offsetJumpTarget (s.offsetJumpBase nnn) nnn)
  | .drw x y n => t = ((s.setVF 0).plotRows n.val ((s.getV x).toNat % 64) ((s.getV y).toNat % 32)).setRedraw true
  | .skp x => (∃ b, t = s.skipIf b) ∨ (15 < (s.getV x).toNat ∧ t = s.raiseFault .keyIndexOutOfRange)
  | .sknp x => (∃ b, t = s.skipIf b) ∨ (15 < (s.getV x).toNat ∧ t = s.raiseFault .keyIndexOutOfRange)
  | .ldVxDt x => t = s.setV x s.dt
  | .ldVxK x => (∃ b, t = s.setV x b) ∨ t = s.rewind
  | .ldDtVx x => t = s.setDt (s.getV x)
  | .ldStVx x => t = s.setSt (s.getV x)
  | .addI x => (s.i.toNat + (s.getV x).toNat > 0xFFF ∧ t = (s.setVF 1).setI (indexSum s.i (s.getV x))) ∨ t = s.setI (indexSum s.i (s.getV x))
  | .ldF x => t = s.setI (glyphAddr (s.getV x))
  | .ldB _ => ∃ a b c, t = s.storeBytes s.i.toNat [a,b,c]
  | .stRegs x => t = (s.storeRegs (x.val + 1)).advanceI x
  | .ldRegs x => t = (s.loadRegs (x.val + 1)).advanceI x
  | .unknown w => t = s.report w

variable {s}

/-- Every next state of a handler is one of those. -/
theorem exec_next {i : Instr} {t : State} (h : exec i s = .next t) : HandlerNext i s t := by
  cases i
  case ret =>
    simp only [exec, execRet] at h
    split at h
    · next hg => simp at h hg; exact .inl ⟨hg, h.symm⟩
    · next w hg => 
      simp at h
      obtain ⟨l, hl⟩ := List.getLast?_eq_some_iff.1 hg
      right; refine ⟨l, w, hl, ?_⟩
      rw [← h, hl]; simp
  case call =>
    simp only [exec, execCall] at h
    split at h
    · next hg => simp at h; exact .inl ⟨hg, h.symm⟩
    · next hg => simp at h; exact .inr ⟨hg, h.symm⟩
  case skp =>
    simp only [exec, execSkp, State.keyAt?_eq] at h
    split at h
    · next hg => split at hg <;> simp at hg h; exact .inr ⟨by omega, h.symm⟩
    · next hg => simp at h; exact .inl ⟨_, h.symm⟩
  case sknp =>
    simp only [exec, execSknp, State.keyAt?_eq] at h
    split at h
    · next hg => split at hg <;> simp at hg h; exact .inr ⟨by omega, h.symm⟩
    · next hg => simp at h; exact .inl ⟨_, h.symm⟩
  case ldVxK =>
    simp only [exec, execLdVxK] at h
    split at h
    · simp at h; exact .inl ⟨_, h.symm⟩
    · simp at h; exact .inr h.symm
  case shr => simp [exec, execShr, State.copyForShift_eq] at h; exact ⟨_, _, _, h.symm⟩
  case shl => simp [exec, execShl, State.copyForShift_eq] at h; exact ⟨_, _, _, h.symm⟩
  case rnd => simp [exec, execRnd, State.drawRand] at h; exact ⟨_, h.symm⟩
  case addI =>
    simp only [exec, execAddI, indexOverflows] at h
    simp at h
    split at h
    · left; exact ⟨by omega, h.symm⟩
    · right; exact h.symm
  case ldF => simp only [exec, execLdF, State.ifConventional] at h; split at h <;> simp at h; exact h.symm
  case ldB => simp only [exec, execLdB, State.ifConventional] at h; split at h <;> simp at h; exact ⟨_,_,_,h.symm⟩
  case stRegs => simp only [exec, execStRegs, State.ifConventional] at h; split at h <;> simp at h; exact h.symm
  case ldRegs => simp only [exec, execLdRegs, State.ifConventional] at h; split at h <;> simp at h; exact h.symm
  all_goals (injection h with h; exact h.symm)

/-- No handler answers with the fault of a halted block: that is `step`'s alone (60_exceptions.md R266). -/
theorem exec_ne_fault (i : Instr) (s : State) (f : Fault) : exec i s ≠ .fault f := by
  cases i
  case ret => simp only [exec, execRet]; split <;> simp
  case call nnn => simp only [exec, execCall]; split <;> simp
  case skp x => simp only [exec, execSkp]; split <;> simp
  case sknp x => simp only [exec, execSknp]; split <;> simp
  case ldVxK x => simp only [exec, execLdVxK]; split <;> simp
  case ldF x => simp only [exec, execLdF, State.ifConventional]; split <;> simp
  case ldB x => simp only [exec, execLdB, State.ifConventional]; split <;> simp
  case stRegs x => simp only [exec, execStRegs, State.ifConventional]; split <;> simp
  case ldRegs x => simp only [exec, execLdRegs, State.ifConventional]; split <;> simp
  all_goals (intro h; injection h)

end Sys2Proof.Machine
end

