-- ==== Sys2Proof/Laws/PerInstr.lean ====
section
/-! SUPPORT. The family RowMatch: the word of every instruction selects that instruction's row of the dispatch table
(30_encoding.md R76, R77). -/

namespace Sys2Proof.Laws.RowMatch

/-- The row of an instruction: its mask and match in 30_encoding.md R76; none for an unknown word. -/
def row : Instr → Option OpcodeRow
  | .cls => some ⟨0xFFFF, 0x00E0⟩
  | .ret => some ⟨0xFFFF, 0x00EE⟩
  | .jp _ => some ⟨0xF000, 0x1000⟩
  | .call _ => some ⟨0xF000, 0x2000⟩
  | .seImm _ _ => some ⟨0xF000, 0x3000⟩
  | .sneImm _ _ => some ⟨0xF000, 0x4000⟩
  | .seReg _ _ => some ⟨0xF00F, 0x5000⟩
  | .ldImm _ _ => some ⟨0xF000, 0x6000⟩
  | .addImm _ _ => some ⟨0xF000, 0x7000⟩
  | .ldReg _ _ => some ⟨0xF00F, 0x8000⟩
  | .orReg _ _ => some ⟨0xF00F, 0x8001⟩
  | .andReg _ _ => some ⟨0xF00F, 0x8002⟩
  | .xorReg _ _ => some ⟨0xF00F, 0x8003⟩
  | .addReg _ _ => some ⟨0xF00F, 0x8004⟩
  | .subReg _ _ => some ⟨0xF00F, 0x8005⟩
  | .shr _ _ => some ⟨0xF00F, 0x8006⟩
  | .subnReg _ _ => some ⟨0xF00F, 0x8007⟩
  | .shl _ _ => some ⟨0xF00F, 0x800E⟩
  | .sneReg _ _ => some ⟨0xF00F, 0x9000⟩
  | .ldI _ => some ⟨0xF000, 0xA000⟩
  | .jpV0 _ => some ⟨0xF000, 0xB000⟩
  | .rnd _ _ => some ⟨0xF000, 0xC000⟩
  | .drw _ _ _ => some ⟨0xF000, 0xD000⟩
  | .skp _ => some ⟨0xF0FF, 0xE09E⟩
  | .sknp _ => some ⟨0xF0FF, 0xE0A1⟩
  | .ldVxDt _ => some ⟨0xF0FF, 0xF007⟩
  | .ldVxK _ => some ⟨0xF0FF, 0xF00A⟩
  | .ldDtVx _ => some ⟨0xF0FF, 0xF015⟩
  | .ldStVx _ => some ⟨0xF0FF, 0xF018⟩
  | .addI _ => some ⟨0xF0FF, 0xF01E⟩
  | .ldF _ => some ⟨0xF0FF, 0xF029⟩
  | .ldB _ => some ⟨0xF0FF, 0xF033⟩
  | .stRegs _ => some ⟨0xF0FF, 0xF055⟩
  | .ldRegs _ => some ⟨0xF0FF, 0xF065⟩
  | .unknown _ => none

/-- The word of `i` selects the row of `i`; the word of a well-formed unknown instruction selects none. -/
def Statement (i : Instr) : Prop :=
  i.wellFormed = true →
    match row i with
    | some r => r ∈ opcodeRows ∧ r.selects (encode i) = true
    | none => selectsNoRow (encode i) = true

theorem and_ones4 (c : BitVec 4) : c &&& 0xF#4 = c := BitVec.and_allOnes

theorem and_ones8 (c : BitVec 8) : c &&& 0xFF#8 = c := BitVec.and_allOnes

theorem encNnn_selects (c : BitVec 4) (nnn : Addr) :
    OpcodeRow.selects ⟨0xF#4 ++ 0x000#12, c ++ 0x000#12⟩ (encNnn c nnn) = true := by
  unfold OpcodeRow.selects encNnn
  rw [BitVec.and_append, and_ones4, BitVec.and_zero, beq_self_eq_true]

theorem encXnn_selects (c : BitVec 4) (x : Reg) (nn : Byte) :
    OpcodeRow.selects ⟨0xF#4 ++ 0x0#4 ++ 0x00#8, c ++ 0x0#4 ++ 0x00#8⟩ (encXnn c x nn) = true := by
  unfold OpcodeRow.selects encXnn
  rw [BitVec.and_append, BitVec.and_append, and_ones4, BitVec.and_zero, BitVec.and_zero, beq_self_eq_true]

theorem encXnn_selects_nn (c : BitVec 4) (x : Reg) (nn : Byte) :
    OpcodeRow.selects ⟨0xF#4 ++ 0x0#4 ++ 0xFF#8, c ++ 0x0#4 ++ nn⟩ (encXnn c x nn) = true := by
  unfold OpcodeRow.selects encXnn
  rw [BitVec.and_append, BitVec.and_append, and_ones4, BitVec.and_zero, and_ones8, beq_self_eq_true]

theorem encXyn_selects (c : BitVec 4) (x y n : Fin 16) :
    OpcodeRow.selects ⟨0xF#4 ++ 0x0#4 ++ 0x0#4 ++ 0x0#4, c ++ 0x0#4 ++ 0x0#4 ++ 0x0#4⟩ (encXyn c x y n) = true := by
  unfold OpcodeRow.selects encXyn
  rw [BitVec.and_append, BitVec.and_append, BitVec.and_append, and_ones4, BitVec.and_zero, BitVec.and_zero,
    BitVec.and_zero, beq_self_eq_true]

theorem encXyn_selects_n (c : BitVec 4) (x y n : Fin 16) :
    OpcodeRow.selects ⟨0xF#4 ++ 0x0#4 ++ 0x0#4 ++ 0xF#4, c ++ 0x0#4 ++ 0x0#4 ++ nibbleBits n⟩ (encXyn c x y n) = true := by
  unfold OpcodeRow.selects encXyn
  rw [BitVec.and_append, BitVec.and_append, BitVec.and_append, and_ones4, BitVec.and_zero, BitVec.and_zero, and_ones4,
    beq_self_eq_true]

theorem cls : Statement .cls := fun _ => ⟨by decide, by decide⟩
theorem ret : Statement .ret := fun _ => ⟨by decide, by decide⟩
theorem jp (nnn : Addr) : Statement (.jp nnn) := fun _ => ⟨by decide, encNnn_selects 0x1 nnn⟩
theorem call (nnn : Addr) : Statement (.call nnn) := fun _ => ⟨by decide, encNnn_selects 0x2 nnn⟩
theorem seImm (x : Reg) (nn : Byte) : Statement (.seImm x nn) := fun _ => ⟨by decide, encXnn_selects 0x3 x nn⟩
theorem sneImm (x : Reg) (nn : Byte) : Statement (.sneImm x nn) := fun _ => ⟨by decide, encXnn_selects 0x4 x nn⟩
theorem seReg (x y : Reg) : Statement (.seReg x y) := fun _ => ⟨by decide, encXyn_selects_n 0x5 x y 0⟩
theorem ldImm (x : Reg) (nn : Byte) : Statement (.ldImm x nn) := fun _ => ⟨by decide, encXnn_selects 0x6 x nn⟩
theorem addImm (x : Reg) (nn : Byte) : Statement (.addImm x nn) := fun _ => ⟨by decide, encXnn_selects 0x7 x nn⟩
theorem ldReg (x y : Reg) : Statement (.ldReg x y) := fun _ => ⟨by decide, encXyn_selects_n 0x8 x y 0⟩
theorem orReg (x y : Reg) : Statement (.orReg x y) := fun _ => ⟨by decide, encXyn_selects_n 0x8 x y 1⟩
theorem andReg (x y : Reg) : Statement (.andReg x y) := fun _ => ⟨by decide, encXyn_selects_n 0x8 x y 2⟩
theorem xorReg (x y : Reg) : Statement (.xorReg x y) := fun _ => ⟨by decide, encXyn_selects_n 0x8 x y 3⟩
theorem addReg (x y : Reg) : Statement (.addReg x y) := fun _ => ⟨by decide, encXyn_selects_n 0x8 x y 4⟩
theorem subReg (x y : Reg) : Statement (.subReg x y) := fun _ => ⟨by decide, encXyn_selects_n 0x8 x y 5⟩
theorem shr (x y : Reg) : Statement (.shr x y) := fun _ => ⟨by decide, encXyn_selects_n 0x8 x y 6⟩
theorem subnReg (x y : Reg) : Statement (.subnReg x y) := fun _ => ⟨by decide, encXyn_selects_n 0x8 x y 7⟩
theorem shl (x y : Reg) : Statement (.shl x y) := fun _ => ⟨by decide, encXyn_selects_n 0x8 x y 14⟩
theorem sneReg (x y : Reg) : Statement (.sneReg x y) := fun _ => ⟨by decide, encXyn_selects_n 0x9 x y 0⟩
theorem ldI (nnn : Addr) : Statement (.ldI nnn) := fun _ => ⟨by decide, encNnn_selects 0xA nnn⟩
theorem jpV0 (nnn : Addr) : Statement (.jpV0 nnn) := fun _ => ⟨by decide, encNnn_selects 0xB nnn⟩
theorem rnd (x : Reg) (nn : Byte) : Statement (.rnd x nn) := fun _ => ⟨by decide, encXnn_selects 0xC x nn⟩
theorem drw (x y : Reg) (n : Fin 16) : Statement (.drw x y n) := fun _ => ⟨by decide, encXyn_selects 0xD x y n⟩
theorem skp (x : Reg) : Statement (.skp x) := fun _ => ⟨by decide, encXnn_selects_nn 0xE x 0x9E⟩
theorem sknp (x : Reg) : Statement (.sknp x) := fun _ => ⟨by decide, encXnn_selects_nn 0xE x 0xA1⟩
theorem ldVxDt (x : Reg) : Statement (.ldVxDt x) := fun _ => ⟨by decide, encXnn_selects_nn 0xF x 0x07⟩
theorem ldVxK (x : Reg) : Statement (.ldVxK x) := fun _ => ⟨by decide, encXnn_selects_nn 0xF x 0x0A⟩
theorem ldDtVx (x : Reg) : Statement (.ldDtVx x) := fun _ => ⟨by decide, encXnn_selects_nn 0xF x 0x15⟩
theorem ldStVx (x : Reg) : Statement (.ldStVx x) := fun _ => ⟨by decide, encXnn_selects_nn 0xF x 0x18⟩
theorem addI (x : Reg) : Statement (.addI x) := fun _ => ⟨by decide, encXnn_selects_nn 0xF x 0x1E⟩
theorem ldF (x : Reg) : Statement (.ldF x) := fun _ => ⟨by decide, encXnn_selects_nn 0xF x 0x29⟩
theorem ldB (x : Reg) : Statement (.ldB x) := fun _ => ⟨by decide, encXnn_selects_nn 0xF x 0x33⟩
theorem stRegs (x : Reg) : Statement (.stRegs x) := fun _ => ⟨by decide, encXnn_selects_nn 0xF x 0x55⟩
theorem ldRegs (x : Reg) : Statement (.ldRegs x) := fun _ => ⟨by decide, encXnn_selects_nn 0xF x 0x65⟩
theorem unknown (w : Word) : Statement (.unknown w) := fun h => h

end Sys2Proof.Laws.RowMatch
end

