-- ==== Sys2Proof/Laws/Run.lean ====
section
/-! SUPPORT. What a run can do, said once: host operations one after another, the status of a boundary, and the first
boundary that ends a run. -/

namespace Sys2Proof.Machine

@[simp] theorem stepCount_nil : stepCount [] = 0 := rfl
@[simp] theorem stepCount_cons (op : HostOp) (ops : List HostOp) : stepCount (op :: ops) = op.steps + stepCount ops := rfl

theorem stepCount_append (a b : List HostOp) : stepCount (a ++ b) = stepCount a + stepCount b := by
  induction a with
  | nil => simp
  | cons op a ih => simp [ih, Nat.add_assoc]

theorem stepCount_replicate_execute (n : Nat) : stepCount (List.replicate n .execute) = n := by
  induction n with
  | zero => rfl
  | succ n ih => simp [List.replicate_succ, ih, HostOp.steps, Nat.add_comm]

theorem steps_le_one (op : HostOp) : op.steps ≤ 1 := by cases op <;> simp [HostOp.steps]

@[simp] theorem runOps_nil (s : State) : runOps [] s = .next s := rfl

/-- The first operation of a run that answers has a next state, and the rest runs from it. -/
theorem runOps_cons_next {op : HostOp} {ops : List HostOp} {s t : State} :
    runOps (op :: ops) s = .next t ↔ ∃ u, perform op s = .next u ∧ runOps ops u = .next t := by
  rw [runOps]
  cases perform op s with
  | next u => simp
  | fault f => simp
  | refused r => simp

theorem runOps_append_next {a b : List HostOp} {s t : State} :
    runOps (a ++ b) s = .next t ↔ ∃ u, runOps a s = .next u ∧ runOps b u = .next t := by
  induction a generalizing s with
  | nil => simp
  | cons op a ih =>
    rw [List.cons_append, runOps_cons_next]
    constructor
    · rintro ⟨u, hu, hr⟩
      obtain ⟨w, hw, hb⟩ := ih.1 hr
      exact ⟨w, runOps_cons_next.2 ⟨u, hu, hw⟩, hb⟩
    · rintro ⟨w, hw, hb⟩
      obtain ⟨u, hu, hr⟩ := runOps_cons_next.1 hw
      exact ⟨u, hu, ih.2 ⟨w, hr, hb⟩⟩

@[simp] theorem runSteps_zero (s : State) : runSteps 0 s = .next s := rfl

/-- One more step at the start of a run of steps. -/
theorem runSteps_succ_next {n : Nat} {s t : State} :
    runSteps (n + 1) s = .next t ↔ ∃ u, step s = .next u ∧ runSteps n u = .next t := by
  rw [runSteps, List.replicate_succ, runOps_cons_next]
  rfl

/-- A run of host operations leads from a state the host can drive the block to, to another. -/
theorem Reachable.runOps {ops : List HostOp} {s t : State} (hs : Reachable s) (h : runOps ops s = .next t) : Reachable t := by
  induction ops generalizing s with
  | nil => cases h; exact hs
  | cons op ops ih =>
    obtain ⟨u, hu, hr⟩ := runOps_cons_next.1 h
    exact ih (.perform op s u hs hu) hr

/-- The faults of host operations: `execute` of a halted block, and no other. -/
theorem perform_fault {op : HostOp} {s : State} {f : Fault} (h : perform op s = .fault f) : op = .execute ∧ s.halted = true := by
  cases op with
  | execute =>
    refine ⟨rfl, ?_⟩
    cases hh : s.halted with
    | true => rfl
    | false =>
      have hx : exec _ _ = .fault f := (stepWith_running (Config.tickDue s.tickSamples) hh).symm.trans h
      exact absurd hx (exec_ne_fault _ _ _)
  | keyDown k => simp [perform] at h
  | keyUp k => simp [perform] at h
  | redrawQuery => simp [perform] at h
  | loadProgram bytes =>
    simp only [perform, State.loadProgram] at h
    split at h <;> simp at h

/-! The status of a boundary. -/

theorem RunEnd.status_halted {e : RunEnd} {k : Nat} {s : State} : e.status k s = .halted ↔ s.halted = true := by
  unfold RunEnd.status
  by_cases hh : s.halted = true
  · simp [hh]
  · cases e <;> simp only [hh, if_false, Bool.false_eq_true] <;> split <;> simp

theorem RunEnd.status_bounded_good {n k : Nat} {s : State} :
    (RunEnd.bounded n).status k s = .good ↔ s.halted = false ∧ n ≤ k := by
  by_cases hh : s.halted = true <;> by_cases h : n ≤ k <;> simp [RunEnd.status, hh, h]

theorem RunEnd.status_bounded_notYet {n k : Nat} {s : State} :
    (RunEnd.bounded n).status k s = .notYet ↔ s.halted = false ∧ k < n := by
  by_cases hh : s.halted = true <;> by_cases h : n ≤ k <;> (simp [RunEnd.status, hh, h]; try omega)

theorem RunEnd.status_idle_good {k : Nat} {s : State} : RunEnd.idle.status k s = .good ↔ s.idleEnd := by
  unfold RunEnd.status
  by_cases h : s.idleEnd
  · simp only [h.1, if_pos h, Bool.false_eq_true, if_false]
    exact iff_of_true trivial h
  · by_cases hh : s.halted = true
    · simp [hh]
    · simp only [hh, if_neg h, if_false, Bool.false_eq_true]
      exact iff_of_false EndStatus.noConfusion h

theorem RunEnd.status_idle_notYet {k : Nat} {s : State} :
    RunEnd.idle.status k s = .notYet ↔ s.halted = false ∧ ¬ s.idleEnd := by
  unfold RunEnd.status
  by_cases h : s.idleEnd
  · simp only [h.1, if_pos h, Bool.false_eq_true, if_false]
    exact iff_of_false EndStatus.noConfusion (fun hn => hn.2 h)
  · by_cases hh : s.halted = true
    · simp [hh]
    · simp only [hh, if_neg h, if_false, Bool.false_eq_true]
      exact iff_of_true trivial ⟨trivial, h⟩

/-! The first boundary that ends a run. -/

/-- Every boundary strictly before the end of `pre` leaves the run going. -/
def StillRunning (e : RunEnd) (k : Nat) (pre : List HostOp) (s : State) : Prop :=
  ∀ p, p <+: pre → p ≠ pre → ∀ u, runOps p s = .next u → e.status (k + stepCount p) u = .notYet

theorem stillRunning_cons {e : RunEnd} {k : Nat} {op : HostOp} {pre : List HostOp} {s u : State} (hu : perform op s = .next u) :
    StillRunning e k (op :: pre) s ↔ e.status k s = .notYet ∧ StillRunning e (k + op.steps) pre u := by
  constructor
  · intro h
    refine ⟨h [] (List.nil_prefix) (by simp) s rfl, fun p hp hne w hw => ?_⟩
    rw [Nat.add_assoc]
    exact h (op :: p) (List.cons_prefix_cons.2 ⟨rfl, hp⟩) (by simpa using hne) w (runOps_cons_next.2 ⟨u, hu, hw⟩)
  · rintro ⟨h0, h⟩ p hp hne w hw
    cases p with
    | nil => cases hw; exact h0
    | cons q p =>
      obtain ⟨rfl, hp'⟩ := List.cons_prefix_cons.1 hp
      obtain ⟨v, hv, hr⟩ := runOps_cons_next.1 hw
      obtain rfl : u = v := by rw [hu] at hv; cases hv; rfl
      rw [stepCount_cons, ← Nat.add_assoc]
      exact h p hp' (fun e => hne (by rw [e])) w hr

/-- A run has a good end exactly at the first boundary whose status is good. -/
theorem runFrom_goodEnd {e : RunEnd} {k : Nat} {ops : List HostOp} {s t : State} :
    runFrom e k ops s = .goodEnd t ↔ ∃ pre rest, ops = pre ++ rest ∧ runOps pre s = .next t ∧
      e.status (k + stepCount pre) t = .good ∧ StillRunning e k pre s := by
  induction ops generalizing k s with
  | nil =>
    rw [runFrom]
    constructor
    · intro h
      cases hs : e.status k s with
      | good =>
        obtain rfl : s = t := by simpa [hs] using h
        exact ⟨[], [], rfl, rfl, hs, fun p hp hne => absurd (List.prefix_nil.1 hp) hne⟩
      | halted => simp [hs] at h
      | notYet => simp [hs] at h
    · rintro ⟨pre, rest, he, hr, hg, -⟩
      obtain ⟨rfl, rfl⟩ := List.append_eq_nil_iff.1 he.symm
      obtain rfl : s = t := by simpa using hr
      rw [show e.status k s = .good from hg]
  | cons op ops ih =>
    rw [runFrom]
    constructor
    · intro h
      cases hs : e.status k s with
      | good =>
        obtain rfl : s = t := by simpa [hs] using h
        exact ⟨[], op :: ops, rfl, rfl, hs, fun p hp hne => absurd (List.prefix_nil.1 hp) hne⟩
      | halted => simp [hs] at h
      | notYet =>
        cases hp : perform op s with
        | next u =>
          simp only [hs, hp] at h
          obtain ⟨pre, rest, rfl, hr, hg, hb⟩ := ih.1 h
          rw [Nat.add_assoc] at hg
          exact ⟨op :: pre, rest, rfl, runOps_cons_next.2 ⟨u, hp, hr⟩, hg, (stillRunning_cons hp).2 ⟨hs, hb⟩⟩
        | fault f => cases f; simp [hs, hp] at h
        | refused r => simp [hs, hp] at h
    · rintro ⟨pre, rest, he, hr, hg, hb⟩
      cases pre with
      | nil =>
        obtain rfl : s = t := by simpa using hr
        rw [show e.status k s = .good from hg]
      | cons q pre =>
        obtain ⟨rfl, rfl⟩ : op = q ∧ ops = pre ++ rest := by simpa using he
        obtain ⟨u, hu, hr⟩ := runOps_cons_next.1 hr
        obtain ⟨h0, hb⟩ := (stillRunning_cons hu).1 hb
        rw [stepCount_cons, ← Nat.add_assoc] at hg
        simp only [h0, hu]
        exact ih.2 ⟨pre, rest, rfl, hr, hg, hb⟩

/-- A run that comes out at a halted end has reached a halted state. -/
theorem runFrom_haltedEnd {e : RunEnd} {k : Nat} {ops : List HostOp} {s t : State} (h : runFrom e k ops s = .haltedEnd t) :
    t.halted = true := by
  induction ops generalizing k s with
  | nil =>
    rw [runFrom] at h
    cases hs : e.status k s with
    | good => simp [hs] at h
    | halted =>
      obtain rfl : s = t := by simpa [hs] using h
      exact RunEnd.status_halted.1 hs
    | notYet => simp [hs] at h
  | cons op ops ih =>
    rw [runFrom] at h
    cases hs : e.status k s with
    | good => simp [hs] at h
    | halted =>
      obtain rfl : s = t := by simpa [hs] using h
      exact RunEnd.status_halted.1 hs
    | notYet =>
      cases hp : perform op s with
      | next u => simp only [hs, hp] at h; exact ih h
      | fault f =>
        cases f
        obtain rfl : s = t := by simpa [hs, hp] using h
        exact (perform_fault hp).2
      | refused r => simp [hs, hp] at h

end Sys2Proof.Machine
end

