-- ==== Sys2Proof/Machine/Assembly.lean ====
section
/-! DEFINITION. How an instruction is printed (30_encoding.md R82, the spec's general knowledge and decision D27): the
mnemonic column of R76, registers `V0` to `VF`, hexadecimal immediates as 95_test_vectors.md writes them. No rule of state
depends on it. -/

namespace Sys2Proof

/-- One hexadecimal digit. -/
def hexDigit (n : Nat) : String :=
  ["0", "1", "2", "3", "4", "5", "6", "7", "8", "9", "A", "B", "C", "D", "E", "F"].getD (n % 16) "0"

/-- The last `k` hexadecimal digits of a number, the most significant first. -/
def hexDigits : Nat → Nat → String
  | 0, _ => ""
  | k + 1, n => hexDigits k (n / 16) ++ hexDigit n

/-- A register operand, `V0` to `VF` (R82). -/
def asmReg (x : Reg) : String := "V" ++ hexDigit x.val

/-- A 12-bit address or offset, as 95_test_vectors.md writes it. -/
def asmAddr (nnn : Addr) : String := "0x" ++ hexDigits 3 nnn.toNat

/-- A mnemonic with its operands, separated by commas (R82). -/
def asmLine (mnemonic : String) (operands : List String) : String := mnemonic ++ " " ++ ", ".intercalate operands

/-- A register and an 8-bit immediate. -/
def asmXnn (mnemonic : String) (x : Reg) (nn : Byte) : String := asmLine mnemonic [asmReg x, hexDigits 2 nn.toNat]

/-- Two registers. -/
def asmXy (mnemonic : String) (x y : Reg) : String := asmLine mnemonic [asmReg x, asmReg y]

/-- The printed form of an instruction (R82); an unknown instruction is a raw word. -/
def Instr.asm : Instr → String
  | .cls => "CLS"
  | .ret => "RET"
  | .jp nnn => asmLine "JP" [asmAddr nnn]
  | .call nnn => asmLine "CALL" [asmAddr nnn]
  | .seImm x nn => asmXnn "SE" x nn
  | .sneImm x nn => asmXnn "SNE" x nn
  | .seReg x y => asmXy "SE" x y
  | .ldImm x nn => asmXnn "LD" x nn
  | .addImm x nn => asmXnn "ADD" x nn
  | .ldReg x y => asmXy "LD" x y
  | .orReg x y => asmXy "OR" x y
  | .andReg x y => asmXy "AND" x y
  | .xorReg x y => asmXy "XOR" x y
  | .addReg x y => asmXy "ADD" x y
  | .subReg x y => asmXy "SUB" x y
  | .shr x y => asmXy "SHR" x y
  | .subnReg x y => asmXy "SUBN" x y
  | .shl x y => asmXy "SHL" x y
  | .sneReg x y => asmXy "SNE" x y
  | .ldI nnn => asmLine "LD" ["I", asmAddr nnn]
  | .jpV0 nnn => asmLine "JP" ["V0", asmAddr nnn]
  | .rnd x nn => asmXnn "RND" x nn
  | .drw x y n => asmLine "DRW" [asmReg x, asmReg y, hexDigit n.val]
  | .skp x => asmLine "SKP" [asmReg x]
  | .sknp x => asmLine "SKNP" [asmReg x]
  | .ldVxDt x => asmLine "LD" [asmReg x, "DT"]
  | .ldVxK x => asmLine "LD" [asmReg x, "K"]
  | .ldDtVx x => asmLine "LD" ["DT", asmReg x]
  | .ldStVx x => asmLine "LD" ["ST", asmReg x]
  | .addI x => asmLine "ADD" ["I", asmReg x]
  | .ldF x => asmLine "LD" ["F", asmReg x]
  | .ldB x => asmLine "LD" ["B", asmReg x]
  | .stRegs x => asmLine "LD" ["[I]", asmReg x]
  | .ldRegs x => asmLine "LD" [asmReg x, "[I]"]
  | .unknown w => "DW 0x" ++ hexDigits 4 w.toNat

end Sys2Proof
end

