-- ==== Sys2Proof/Tests/Slice0.lean ====
section
/-! SUPPORT. The model's own tests: the well-formedness smoke test, one written-out word per instruction for the decoder, the
vectors of spec/95_test_vectors.md for the meanings, and a witness for the hypotheses of each statement. Every expected
value is the spec's; each test names its vector or rule. -/

namespace Sys2Proof.Tests

open Sys2Proof.Machine

/-- What `f` shows of a next state; `none` on a fault or a refusal. -/
def shows {α : Type} (o : Host.Outcome State Fault Refusal) (f : State → α) : Option α :=
  match o with
  | .next t => some (f t)
  | .fault _ => none
  | .refused _ => none

/-- Whether an outcome is a next state, the fault of a halted block, or the refusal of a memory operation. -/
def isNext (o : Host.Outcome State Fault Refusal) : Bool := match o with | .next _ => true | .fault _ => false | .refused _ => false
def isFault (o : Host.Outcome State Fault Refusal) : Bool := match o with | .next _ => false | .fault _ => true | .refused _ => false
def isRefusal (r : Refusal) (o : Host.Outcome State Fault Refusal) : Bool :=
  match o with | .next _ => false | .fault _ => false | .refused q => q == r

/-- The state after construction with both quirks off (the default of 95_test_vectors.md section 2). -/
def base : State := { State.reset with params := ⟨false, false, .conventional, .unchanged, none⟩ }

/-- The same with other parameters. -/
def based (p : Params) : State := { State.reset with params := p }

/-- `V[x]` set for a list of registers. -/
def withV (s : State) (l : List (Reg × Byte)) : State := l.foldl (fun t p => t.setV p.1 p.2) s

/-- One step of the word `w` placed at `pc`. -/
def run (due : Bool) (s : State) (w : Word) : Host.Outcome State Fault Refusal := stepWith due (s.placeWord s.pc.toNat w)

/-! The well-formedness check refuses an unknown word that selects a row. -/

theorem test_illFormed_unknown_cls : (Instr.unknown 0x00E0).wellFormed = false := by decide
theorem test_illFormed_unknown_drw : (Instr.unknown 0xD012).wellFormed = false := by decide
theorem test_wellFormed_unknown_sys : (Instr.unknown 0x0123).wellFormed = true := by decide
theorem test_opcodeRows_length : opcodeRows.length = 34 := by decide

/-! Decoding: one word per instruction, written out from the encoding column of 30_encoding.md R76. -/

theorem test_decode_system : decode 0x00E0 = .cls ∧ decode 0x00EE = .ret ∧ decode 0x1ABC = .jp 0xABC ∧ decode 0x2400 = .call 0x400 := by decide
theorem test_decode_immediate : decode 0x3142 = .seImm 1 0x42 ∧ decode 0x4143 = .sneImm 1 0x43 ∧ decode 0x6A7F = .ldImm 10 0x7F ∧ decode 0x7A01 = .addImm 10 0x01 := by decide
theorem test_decode_skips : decode 0x5120 = .seReg 1 2 ∧ decode 0x9120 = .sneReg 1 2 := by decide
theorem test_decode_logic : decode 0x8AB0 = .ldReg 10 11 ∧ decode 0x8AB1 = .orReg 10 11 ∧ decode 0x8AB2 = .andReg 10 11 ∧ decode 0x8AB3 = .xorReg 10 11 := by decide
theorem test_decode_arith : decode 0x8124 = .addReg 1 2 ∧ decode 0x8125 = .subReg 1 2 ∧ decode 0x8126 = .shr 1 2 ∧ decode 0x8017 = .subnReg 0 1 ∧ decode 0x801E = .shl 0 1 := by decide
theorem test_decode_index : decode 0xA123 = .ldI 0x123 ∧ decode 0xB300 = .jpV0 0x300 ∧ decode 0xC30F = .rnd 3 0x0F ∧ decode 0xD012 = .drw 0 1 2 := by decide
theorem test_decode_keys : decode 0xE19E = .skp 1 ∧ decode 0xE1A1 = .sknp 1 ∧ decode 0xF20A = .ldVxK 2 := by decide
theorem test_decode_timers : decode 0xF307 = .ldVxDt 3 ∧ decode 0xF315 = .ldDtVx 3 ∧ decode 0xF318 = .ldStVx 3 ∧ decode 0xF01E = .addI 0 := by decide
theorem test_decode_memory : decode 0xF029 = .ldF 0 ∧ decode 0xF033 = .ldB 0 ∧ decode 0xF255 = .stRegs 2 ∧ decode 0xF265 = .ldRegs 2 := by decide
/-- DEC4, DEC5, DEC6, DEC7. -/
theorem test_decode_unknown_low : ([0x0123, 0x0000, 0x00E1, 0x01E0, 0x5121] : List Word).all (fun w => decode w == .unknown w) = true := by decide
/-- DEC8. -/
theorem test_decode_unknown_high : ([0x8008, 0x800F, 0x9121, 0xE000, 0xE19F, 0xF0FF, 0xF01F] : List Word).all (fun w => decode w == .unknown w) = true := by decide
/-- DEC6a. -/
theorem test_decode_10E0 : decode 0x10E0 = .jp 0x0E0 := by decide
theorem test_decodeBytes_truncated : decodeBytes [0xA2] = .error .truncated := by decide
theorem test_decodeTableWord : decodeTableWord 16 0xD012 = some (.drw 0 1 2) := by decide
theorem test_encode_words : encode (.drw 0 1 2) = 0xD012 ∧ encode (.subReg 1 2) = 0x8125 ∧ encode (.ldRegs 2) = 0xF265 ∧ encode (.jpV0 0x300) = 0xB300 := by decide

/-- The printed forms of the programs of 95_test_vectors.md, and R82's raw word. -/
theorem test_asm : (decode 0x6A0A).asm = "LD VA, 0A" ∧ (decode 0xD012).asm = "DRW V0, V1, 2" ∧ (decode 0xF20A).asm = "LD V2, K" ∧
    (decode 0xAFFE).asm = "LD I, 0xFFE" ∧ (decode 0x0123).asm = "DW 0x0123" := by decide

/-! Fetch and step. -/

/-- DEC1. -/
theorem test_fetch_bigEndian : shows (run false base 0xA234) (fun t => (t.i, t.pc)) = some (0x234, 0x202) := by decide
/-- DEC2: the word at 0xFFF wraps to 0x000. -/
theorem test_fetch_wraps : shows (run false (base.setPc 0xFFF) 0x12F0) (fun t => t.pc) = some 0x2F0 := by decide
/-- DEC3. -/
theorem test_fetch_odd : shows (run false (base.setPc 0x201) 0x6011) (fun t => (t.getV 0, t.pc)) = some (0x11, 0x203) := by decide
/-- DEC4. -/
theorem test_unknown_reports : shows (run false base 0x0123) (fun t => (t.unknownReport, t.pc, t.halted)) = some (some 0x0123, 0x202, false) := by decide
/-- DEC9. -/
theorem test_unknown_ticks : shows (run true (base.setDt 2) 0x8008) (fun t => t.dt) = some 1 := by decide
/-- DEC10. -/
theorem test_refuse : isRefusal .fxMemoryOps (run false (based ⟨false, false, .refuse, .unchanged, none⟩) 0xF029) = true := by decide
/-- DEC11. -/
theorem test_halted_noStep : isFault (run false (base.raiseFault .stackUnderflow) 0x6011) = true := by decide
/-- TMR1, TMR2. -/
theorem test_tick_saturates : shows (run true (base.setSt 3) 0x6000) (fun t => (t.dt, t.st)) = some (0, 2) := by decide
theorem test_tick_notDue : shows (run false ((base.setDt 5).setSt 5) 0x6000) (fun t => (t.dt, t.st)) = some (5, 5) := by decide
/-- The host's own question: a placed word runs as the first instruction after reset. -/
theorem test_withFetchWord : shows (step (State.reset.withFetchWord 16 0x6A7F)) (fun t => (t.getV 10, t.pc)) = some (0x7F, 0x202) := by decide

/-! Control flow. -/

/-- CF1, CF2. -/
theorem test_jp : shows (run false base 0x1ABC) (fun t => t.pc) = some 0xABC := by decide
theorem test_jp_odd : shows (run false base 0x1203) (fun t => t.pc) = some 0x203 := by decide
/-- L1.6, CF4. -/
theorem test_call : shows (run false base 0x2400) (fun t => (t.stack, t.pc)) = some ([0x202], 0x400) := by decide
theorem test_call_wraps : shows (run false (base.setPc 0xFFE) 0x2400) (fun t => (t.stack, t.pc)) = some ([0x000], 0x400) := by decide
/-- R263: a full finite stack. -/
theorem test_call_full : shows (run false (based ⟨false, false, .conventional, .unchanged, some 0⟩) 0x2400) (fun t => (t.faultCause, t.halted, t.stack, t.pc)) = some (some .stackOverflow, true, [], 0x202) := by decide
/-- CF5, CF6. -/
theorem test_ret : shows (run false (base.setStack [0x202, 0x302]) 0x00EE) (fun t => (t.stack, t.pc)) = some ([0x202], 0x302) := by decide
theorem test_ret_empty : shows (run true (base.setDt 3) 0x00EE) (fun t => (t.halted, t.faultCause, t.pc, t.dt)) = some (true, some .stackUnderflow, 0x202, 2) := by decide
/-- CF7, CF8, CF12. -/
theorem test_seImm : shows (run false ((base.setPc 0x300).setV 1 0x42) 0x3142) (fun t => t.pc) = some 0x304 := by decide
theorem test_seImm_top : shows (run false (base.setPc 0xFFC) 0x3100) (fun t => t.pc) = some 0x1000 := by decide
/-- CF9. -/
theorem test_sneImm : shows (run false ((base.setPc 0x300).setV 1 0x42) 0x4143) (fun t => t.pc) = some 0x304 := by decide
theorem test_sneImm_equal : shows (run false ((base.setPc 0x300).setV 1 0x42) 0x4142) (fun t => t.pc) = some 0x302 := by decide
/-- CF10. -/
theorem test_seReg : shows (run false ((base.setPc 0x300).setV 1 0x07) 0x5110) (fun t => t.pc) = some 0x304 := by decide
/-- R107's example, CF11. -/
theorem test_sneReg : shows (run false (withV (base.setPc 0x300) [(1, 0x07), (2, 0x08)]) 0x9120) (fun t => t.pc) = some 0x304 := by decide
theorem test_sneReg_self : shows (run false (base.setPc 0x300) 0x9110) (fun t => t.pc) = some 0x302 := by decide
/-- CF14, CF16. -/
theorem test_jpV0_past12 : shows (run false (base.setV 0 0xFF) 0xBFFF) (fun t => t.pc) = some 0x10FE := by decide
theorem test_jpV0_quirk : shows (run false (withV (based ⟨false, true, .conventional, .unchanged, none⟩) [(0, 0x10), (3, 0x20)]) 0xB300) (fun t => t.pc) = some 0x320 := by decide

/-! Register file and ALU. -/

/-- R131's example. -/
theorem test_ldImm : shows (run false base 0x6A7F) (fun t => t.getV 10) = some 0x7F := by decide
/-- L1.1, ALU2. -/
theorem test_addImm : shows (run false (withV base [(10, 0xF0), (15, 0x55)]) 0x7A20) (fun t => (t.getV 10, t.getV 15)) = some (0x10, 0x55) := by decide
theorem test_addImm_vf : shows (run false (base.setV 15 0xFF) 0x7F01) (fun t => t.getV 15) = some 0x00 := by decide
/-- ALU4 to ALU7. -/
theorem test_ldReg : shows (run false (withV base [(10, 0x12), (11, 0x34)]) 0x8AB0) (fun t => t.getV 10) = some 0x34 := by decide
theorem test_orReg : shows (run false (withV base [(10, 0xF0), (11, 0x0F), (15, 0x77)]) 0x8AB1) (fun t => (t.getV 10, t.getV 15)) = some (0xFF, 0x77) := by decide
theorem test_andReg : shows (run false (withV base [(10, 0xF0), (11, 0x3C)]) 0x8AB2) (fun t => t.getV 10) = some 0x30 := by decide
theorem test_xorReg : shows (run false (withV base [(10, 0xF0), (11, 0x3C)]) 0x8AB3) (fun t => t.getV 10) = some 0xCC := by decide
/-- L1.2, ALU11. -/
theorem test_addReg : shows (run false (withV base [(1, 0xFF), (2, 0x01)]) 0x8124) (fun t => (t.getV 1, t.getV 15)) = some (0x00, 0x01) := by decide
theorem test_addReg_vf : shows (run false (withV base [(15, 0xFF), (1, 0x01)]) 0x8F14) (fun t => t.getV 15) = some 0x01 := by decide
/-- L1.3, ALU13. -/
theorem test_subReg : shows (run false (withV base [(1, 0x01), (2, 0x02)]) 0x8125) (fun t => (t.getV 1, t.getV 15)) = some (0xFF, 0x00) := by decide
theorem test_subReg_equal : shows (run false (withV base [(0, 0x05), (1, 0x05)]) 0x8015) (fun t => (t.getV 0, t.getV 15)) = some (0x00, 0x01) := by decide
/-- ALU16, ALU17. -/
theorem test_subnReg : shows (run false (withV base [(0, 0x05), (1, 0x03)]) 0x8017) (fun t => (t.getV 0, t.getV 15)) = some (0xFE, 0x00) := by decide
theorem test_subnReg_noBorrow : shows (run false (withV base [(0, 0x03), (1, 0x05)]) 0x8017) (fun t => (t.getV 0, t.getV 15)) = some (0x02, 0x01) := by decide
/-- L1.4, ALU22. -/
theorem test_shr_quirk : shows (run false (withV (based ⟨true, false, .conventional, .unchanged, none⟩) [(1, 0x00), (2, 0x03)]) 0x8126) (fun t => (t.getV 1, t.getV 15, t.getV 2)) = some (0x01, 0x01, 0x03) := by decide
theorem test_shr_vf : shows (run false (withV (based ⟨true, false, .conventional, .unchanged, none⟩) [(1, 0x03), (15, 0x99)]) 0x8F16) (fun t => t.getV 15) = some 0x00 := by decide
/-- ALU24, ALU26. -/
theorem test_shl : shows (run false (base.setV 10 0x81) 0x8AAE) (fun t => (t.getV 10, t.getV 15)) = some (0x02, 0x01) := by decide
theorem test_shl_vf : shows (run false (base.setV 15 0x80) 0x8F0E) (fun t => t.getV 15) = some 0x02 := by decide
/-- ALU30: the mask 00 gives 00 for every byte drawn; one byte is consumed. -/
theorem test_rnd_zeroMask : shows (run false base 0xC300) (fun t => (t.getV 3, t.randDraws)) = some (0x00, 1) := by
  show some (Config.randByte 0 &&& 0x00#8, 1) = some (0x00#8, 1)
  rw [BitVec.and_zero]

/-! Index register and memory. -/

/-- IDX1. -/
theorem test_ldI : shows (run false base 0xA123) (fun t => t.i) = some 0x123 := by decide
/-- IDX3, IDX4b. -/
theorem test_addI_edge : shows (run false ((base.setI 0xFFF).setV 15 0x55) 0xF01E) (fun t => (t.i, t.getV 15)) = some (0xFFF, 0x55) := by decide
theorem test_addI_vf : shows (run false ((base.setI 0xFFF).setV 15 0x01) 0xFF1E) (fun t => (t.i, t.getV 15)) = some (0x000, 0x01) := by decide
/-- IDX5, IDX6. -/
theorem test_ldF : shows (run false (base.setV 0 0x0A) 0xF029) (fun t => t.i) = some 0x032 := by decide
theorem test_ldF_lowNibble : shows (run false (base.setV 0 0x1A) 0xF029) (fun t => t.i) = some 0x032 := by decide
/-- IDX7, IDX10. -/
theorem test_ldB : shows (run false ((base.setI 0x300).setV 0 0x9C) 0xF033) (fun t => (t.memRead 0x300, t.memRead 0x301, t.memRead 0x302, t.i)) = some (0x01, 0x05, 0x06, 0x300) := by decide
theorem test_ldB_wraps : shows (run false ((base.setI 0xFFF).setV 0 0xFF) 0xF033) (fun t => (t.memRead 0xFFF, t.memRead 0x000, t.memRead 0x001)) = some (0x02, 0x05, 0x05) := by decide
/-- IDX11, IDX14. -/
theorem test_stRegs : shows (run false (withV (base.setI 0x400) [(0, 1), (1, 2), (2, 3)]) 0xF255) (fun t => (t.memRead 0x400, t.memRead 0x401, t.memRead 0x402, t.memRead 0x403, t.i)) = some (1, 2, 3, 0, 0x400) := by decide
theorem test_stRegs_wraps : shows (run false (withV ((based ⟨false, false, .conventional, .plusXPlus1, none⟩).setI 0xFFF) [(0, 0xA0), (15, 0xAF)]) 0xFF55) (fun t => (t.memRead 0xFFF, t.memRead 0x00E, t.i)) = some (0xA0, 0xAF, 0x100F) := by decide
/-- IDX13 with x = 1, and its `plus_x` advance. -/
theorem test_ldRegs : shows (run false ((((based ⟨false, false, .conventional, .plusX, none⟩).memWrite 0x400 7).memWrite 0x401 8).setI 0x400) 0xF165) (fun t => (t.getV 0, t.getV 1, t.getV 2, t.i)) = some (7, 8, 0, 0x401) := by decide
/-- Log entry 11: Fx55 from I = 0x100F, itself left by IDX14, passes the bound R171 and R177 state. -/
theorem test_index_passes_100F : shows (run false ((based ⟨false, false, .conventional, .plusXPlus1, none⟩).setI 0x100F) 0xFF55) (fun t => t.i) = some 0x101F := by decide

/-! The framebuffer. -/

/-- DSP1. -/
theorem test_cls : shows (run false (base.setFb (Framebuffer.clear.flip 3 4)) 0x00E0) (fun t => (t.fb.pixel 3 4, t.redraw)) = some (false, true) := by decide
/-- DSP2: the start wraps, the pixels clip. -/
theorem test_drw_clips : shows (run false (((withV base [(0, 0x3E), (1, 0x41)]).setI 0x300).placeWord 0x300 0xC3FF) 0xD012)
    (fun t => ([t.fb.pixel 1 62, t.fb.pixel 1 63, t.fb.pixel 2 62, t.fb.pixel 2 63, t.fb.pixel 2 0, t.fb.pixel 1 4, t.redraw], t.getV 15)) =
    some ([true, true, true, true, false, false, true], 0x00) := by decide
/-- DSP7: a collision. -/
theorem test_drw_collides : shows (run false (((base.setFb ((Framebuffer.clear.flip 0 0).flip 0 1)).setI 0x300).memWrite 0x300 0x60) 0xD011)
    (fun t => ([t.fb.pixel 0 0, t.fb.pixel 0 1, t.fb.pixel 0 2], t.getV 15)) = some ([true, false, true], 0x01) := by decide
/-- DSP11. -/
theorem test_redrawQuery : (base.setRedraw true).redrawQuery.1 = true ∧ (base.setRedraw true).redrawQuery.2.redrawQuery.1 = false := by decide

/-! Timers and keys. -/

/-- TMR3. -/
theorem test_ldVxDt : shows (run true (base.setDt 5) 0xF307) (fun t => (t.getV 3, t.dt)) = some (4, 4) := by decide
/-- TMR4. -/
theorem test_ldDtVx : shows (run true ((base.setDt 5).setV 3 0x10) 0xF315) (fun t => t.dt) = some 0x10 := by decide
/-- TMR5. -/
theorem test_ldStVx : shows (run true (base.setV 3 2) 0xF318) (fun t => t.soundTimer) = some 2 := by decide
/-- TMR6, TMR9. -/
theorem test_skp : shows (run false (((base.setPc 0x300).setV 1 7).keyDown 7) 0xE19E) (fun t => t.pc) = some 0x304 := by decide
theorem test_skp_range : shows (run false ((base.setPc 0x300).setV 1 0x10) 0xE19E) (fun t => (t.halted, t.faultCause, t.pc)) = some (true, some .keyIndexOutOfRange, 0x302) := by decide
/-- TMR8, TMR9. -/
theorem test_sknp : shows (run false ((base.setPc 0x300).setV 1 7) 0xE1A1) (fun t => t.pc) = some 0x304 := by decide
theorem test_sknp_range : shows (run false ((base.setPc 0x300).setV 1 0x10) 0xE1A1) (fun t => (t.faultCause, t.pc)) = some (some .keyIndexOutOfRange, 0x302) := by decide
/-- TMR10, TMR12. -/
theorem test_ldVxK : shows (run false (((base.setPc 0x206).keyDown 9).keyDown 3) 0xF20A) (fun t => (t.getV 2, t.pc)) = some (3, 0x208) := by decide
theorem test_ldVxK_rewinds : shows (run false (base.setPc 0xFFE) 0xF20A) (fun t => t.pc) = some 0xFFFE := by decide

/-! Reset and the host. -/

/-- R40 and R58: glyph A of the default font stands at 0x032, and memory above the font is zero. -/
theorem test_font : ((List.range 5).map fun k => State.reset.memRead (0x032 + k)) = [0xF0, 0x90, 0xF0, 0x90, 0x90] ∧ State.reset.memRead 0x050 = 0 := by decide
/-- Construction with the default FONT and the open parameters is `State.reset` (log entry 7). -/
theorem test_construct_default : State.construct Config.params ⟨defaultFont.toArray, rfl⟩ = State.reset := by rfl
/-- R292. -/
theorem test_loadProgram : shows (base.loadProgram [0xA2, 0x34]) (fun t => (t.memRead 0x200, t.memRead 0x201, t.loadable)) = some (0xA2, 0x34, false) := by decide
theorem test_loadProgram_once : shows (base.loadProgram [0xA2]) (fun t => isRefusal .loadProgram (t.loadProgram [0xA2])) = some true := by decide
/-- The canonical form: writing the construction contents back lists nothing. -/
theorem test_memory_canonical : ((base.memWrite 0x300 5).memWrite 0x300 0).mem = [] ∧ Memory.wf State.reset.mem = true := by decide

/-! Witnesses: for each statement with hypotheses, a state and operands that meet them all. -/

theorem witness_DecodeOfEncodeIsIdentity : (Instr.drw 15 15 15).wellFormed = true ∧ (Instr.unknown 0xFFFF).wellFormed = true := by decide
theorem witness_NoWordSelectsTwoRows : (⟨0xF0FF, 0xF065⟩ : OpcodeRow) ∈ opcodeRows ∧ (⟨0xF0FF, 0xF065⟩ : OpcodeRow).selects 0xFF65 = true := by decide
theorem witness_UnknownWordsAreThoseListed : decode 0xFFFF = .unknown 0xFFFF ∧ decode 0x5FF1 = .unknown 0x5FF1 ∧ decode 0x8FFF = .unknown 0x8FFF := by decide

/-- A running state about to run 6A7F. -/
def running : State := base.placeWord 0x200 0x6A7F

theorem witness_StepRunsTheDecodedInstruction : running.halted = false ∧ (Instr.ldImm 10 0x7F).wellFormed = true ∧
    decodeBytes [running.memRead running.pc.toNat, running.memRead (running.pc.toNat + 1)] = .ok (.ldImm 10 0x7F, []) := by decide
theorem witness_HaltedBlockHasNoStep : (base.raiseFault .stackUnderflow).halted = true ∧ isNext (perform (.keyDown 0) (base.raiseFault .stackUnderflow)) = true := by decide
theorem witness_StepAnswersUnlessHaltedOrRefused :
    isRefusal .fxMemoryOps (step ((based ⟨false, false, .refuse, .unchanged, none⟩).placeWord 0x200 0xFF65)) = true := by decide
theorem witness_TickLowersEachTimerOncePerStep : isNext (step ((running.setDt 5).setSt 1)) = true ∧
    decode ((running.setDt 5).setSt 1).nextWord = .ldImm 10 0x7F := by decide
theorem witness_TimerTransfersFollowTheTick :
    ((isNext (stepWith true ((base.setDt 1).placeWord 0x200 0xFF07)) = true ∧ decode ((base.setDt 1).placeWord 0x200 0xFF07).nextWord = .ldVxDt 15) ∧
     (isNext (stepWith true (base.placeWord 0x200 0xF015)) = true ∧ decode (base.placeWord 0x200 0xF015).nextWord = .ldDtVx 0)) ∧
    isNext (stepWith true (base.placeWord 0x200 0xF018)) = true ∧ decode (base.placeWord 0x200 0xF018).nextWord = .ldStVx 0 := by decide
theorem witness_UnknownWordIsOnlyReported : base.halted = false ∧ selectsNoRow base.nextWord = true := by decide

theorem witness_CallPushesTheReturnAddress_unbounded : ∀ d, base.params.stackDepth = some d → base.stack.length ≠ d := by
  intro d h; exact absurd (show (none : Option Nat) = some d from h) (Option.some_ne_none d).symm
theorem witness_CallPushesTheReturnAddress_bounded :
    ∀ d, (based ⟨false, false, .conventional, .unchanged, some 1⟩).params.stackDepth = some d →
      (based ⟨false, false, .conventional, .unchanged, some 1⟩).stack.length ≠ d := by
  intro d h hd; subst hd; exact absurd h (by decide)
theorem witness_CallFaultsOnAFullStack :
    ((based ⟨false, false, .conventional, .unchanged, some 1⟩).push 0x202).params.stackDepth =
      some ((based ⟨false, false, .conventional, .unchanged, some 1⟩).push 0x202).stack.length := by decide
theorem witness_ReturnPopsOrFaults : (base.push 0x302).stack = [] ++ [0x302] ∧ base.stack = [] := by decide
theorem witness_ReturnUndoesCall : ∃ t, exec (.call 0x400) base = .next t ∧ t.halted = base.halted ∧ base.halted = false ∧
    (running.setStack t.stack).stack = t.stack := ⟨_, rfl, rfl, rfl, rfl⟩
theorem witness_OffsetJumpIsNotReduced : base.params.jumpUsesX = false ∧
    (based ⟨false, true, .conventional, .unchanged, none⟩).params.jumpUsesX = true ∧ (15 : Reg).val = (0xFFF : Addr).toNat / 0x100 := by decide
theorem witness_ShiftsMoveOneBitIntoTheFlag : (0x81 : Nat) = (if base.params.shiftUsesY then (base.setV 3 0x81).getV 4 else (base.setV 3 0x81).getV 3).toNat := by decide

/-- The four edges of ADD I, Vx: sums 0xFFF and 0x1000, and I = 0x100F. -/
theorem witness_AddToIndexCorrectsOverflow :
    (base.setI 0xFFF).i.toNat + ((base.setI 0xFFF).getV 0).toNat ≤ 0xFFF ∧
    ((base.setI 0xFFF).setV 0 1).i.toNat + (((base.setI 0xFFF).setV 0 1).getV 0).toNat > 0xFFF ∧ (base.setI 0x100F).i.toNat ≤ 0x100F := by decide
theorem witness_FontPointerIsFiveTimesTheDigit : (base.setV 0 0xFA).params.fxMemoryOps = .conventional := by decide
theorem witness_DecimalDigitsAreStored : (base.setI 0xFFF).params.fxMemoryOps = .conventional ∧ Memory.wf (base.memWrite 0xFFF 1).mem = true ∧
    0x002 % 4096 ≠ ((base.setI 0xFFF).i.toNat + 2) % 4096 := by decide
theorem witness_RegistersAreStored : base.params.fxMemoryOps = .conventional ∧ Memory.wf (base.memWrite 0xFFF 1).mem = true ∧ (15 : Reg) ≤ 15 := by decide
theorem witness_RegistersAreLoaded : base.params.fxMemoryOps = .conventional ∧ (14 : Reg) ≤ 14 ∧ (14 : Reg) < 15 ∧
    (base.setI 0xFFFF).i.toNat + tableInc base.params.loadStoreIMode 14 < 65536 := by decide
theorem witness_RegistersAreStored_inc : (base.setI 0xFFFF).i.toNat + tableInc (base.setI 0xFFFF).params.loadStoreIMode 15 < 65536 := by decide
theorem witness_StoredWordIsFetchedNext : Memory.wf (base.setI 0x1F1).mem = true ∧ isNext (exec (.stRegs 15) (base.setI 0x1F2)) = true ∧
    (15 : Reg).val = (14 : Reg).val + 1 ∧ (base.setI 0x1F2).pc.toNat % 4096 = ((base.setI 0x1F2).i.toNat + (14 : Reg).val) % 4096 := by decide
theorem witness_MemoryOperationsCanBeRefused : (based ⟨false, false, .refuse, .unchanged, none⟩).params.fxMemoryOps = .refuse := by decide
theorem witness_DrawingTwiceRestoresTheFramebuffer : ∃ t u, exec (.drw 0 1 5) base = .next t ∧ exec (.drw 0 1 5) t = .next u ∧
    t.getV 0 = base.getV 0 ∧ t.getV 1 = base.getV 1 ∧ base.fb.pixel 0 0 = false := ⟨_, _, rfl, rfl, by decide, by decide, by decide⟩
theorem witness_KeySkipsFollowTheKeyState : ((base.setV 1 15).getV 1).toNat = (15 : Fin 16).val ∧ (base.getV 1).toNat = (0 : Fin 16).val := by decide
theorem witness_KeySkipsFaultPastTheLastKey : 15 < ((base.setV 1 16).getV 1).toNat := by decide
theorem witness_KeyWaitStoresTheLeastHeldKey : ((base.keyDown 15).keyDown 2).key[(2 : Fin 16)] = true ∧
    ∀ j : Fin 16, j < 2 → ((base.keyDown 15).keyDown 2).key[j] = false := by decide
theorem witness_KeyWaitStallsUntilAKeyIsHeld : isNext (step ((base.setPc 0xFFF).placeWord 0xFFF 0xF20A)) = true ∧
    decode ((base.setPc 0xFFF).placeWord 0xFFF 0xF20A).nextWord = .ldVxK 2 ∧
    ∀ k : Fin 16, ((base.setPc 0xFFF).placeWord 0xFFF 0xF20A).key[k] = false := by decide

theorem witness_OnlyDestinationsAndFlagsAreWritten : shows (exec (.ldImm 14 7) base) (fun t => t.getV 14 != base.getV 14) = some true := by decide
theorem witness_OnlyFlagWritersChangeTheFlag : shows (exec (.subReg 0 1) base) (fun t => t.getV 15 != base.getV 15) = some true := by decide
theorem witness_OnlyIndexInstructionsWriteTheIndex : shows (exec (.ldI 0xFFF) base) (fun t => t.i != base.i) = some true := by decide
theorem witness_OnlyCallAndReturnUseTheStack : shows (exec (.call 0x400) base) (fun t => t.stack != base.stack) = some true := by decide
theorem witness_OnlyTwoInstructionsWriteMemory : shows (exec (.stRegs 0) ((base.setI 0x400).setV 0 9)) (fun t => t.memRead 0x400 != base.memRead 0x400) = some true := by decide
theorem witness_OnlyClearAndDrawTouchTheFramebuffer : shows (exec .cls base) (fun t => t.redraw != base.redraw) = some true := by decide
theorem witness_KeysParametersAndTimersAreKept : shows (exec (.ldDtVx 0) (base.setV 0 9)) (fun t => t.dt != base.dt) = some true ∧
    shows (exec (.ldStVx 0) (base.setV 0 9)) (fun t => t.st != base.st) = some true := by decide
theorem witness_OnlyThreeCausesHaltTheBlock : shows (exec .ret base) (fun t => (base.halted, t.halted)) = some (false, true) := by decide

/-- The longest image fits, one byte more does not. -/
theorem witness_LoadProgramCopiesTheImage : Memory.wf base.mem = true ∧ base.loadable = true ∧ (List.replicate 3584 (0xFF : Byte)).length ≤ 3584 ∧
    3584 < (List.replicate 3585 (0xFF : Byte)).length := by
  refine ⟨by decide, by decide, ?_, ?_⟩
  · rw [List.length_replicate]
  · rw [List.length_replicate]; decide
theorem witness_StepKeepsTheInvariant : ∃ s t, State.Inv s ∧ step s = .next t := by
  refine ⟨running.setPc 0xFFFE, _, ⟨by decide, ?_, ?_, by decide, .inr (by decide), fun _ => by decide⟩, rfl⟩
  · intro w h; exact absurd h (List.not_mem_nil)
  · intro d h; exact absurd (show (none : Option Nat) = some d from h) (Option.some_ne_none d).symm
/-- The state after reset meets the hypotheses for a program load and for a key event. -/
theorem witness_HostOperationsKeepTheInvariant : base.Inv ∧ isNext (perform (.loadProgram [0xA2, 0x34]) base) = true ∧
    isNext (perform (.keyDown 15) base) = true ∧ isNext (perform .redrawQuery base) = true := by
  refine ⟨⟨by decide, ?_, ?_, by decide, .inl (by decide), fun _ => by decide⟩, by decide, by decide, by decide⟩
  · intro w h; exact absurd h (List.not_mem_nil)
  · intro d h; exact absurd (show (none : Option Nat) = some d from h) (Option.some_ne_none d).symm
theorem witness_EveryDrivenRunMeetsTheInvariant : ∃ t, Reachable t ∧ t.stack = [] :=
  ⟨_, Reachable.perform (.keyDown 3) _ _ (Reachable.construct base.params ⟨defaultFont.toArray, rfl⟩) rfl, rfl⟩
theorem witness_IdleEndRepeatsItself : (base.placeWord 0x200 0x1200).idleEnd ∧ ((base.setPc 0x10FE).placeWord 0x0FE 0x10FE).idleEnd :=
  ⟨⟨by decide, by decide⟩, ⟨by decide, by decide⟩⟩
theorem witness_IdleEndRepeatsItself_halted : (base.raiseFault .stackUnderflow).halted = true ∧
    decode (base.placeWord 0x200 0xF20A).nextWord = .ldVxK 2 := by decide

/-! Runs (70_reset_and_hazards.md R303). -/

/-- How a run comes out, and the `pc` it comes out at. -/
def outcome : RunResult → String × Word
  | .goodEnd t => ("good", t.pc)
  | .haltedEnd t => ("halted", t.pc)
  | .unfinished t => ("unfinished", t.pc)
  | .refused t _ => ("refused", t.pc)

/-- 6A7F and then 1202, a jump to itself. -/
def toIdle : State := running.placeWord 0x202 0x1202

/-- The idle end is the boundary before the jump to itself, whatever the host would still do. -/
theorem test_run_idle : outcome (Machine.run .idle [.keyDown 3, .execute, .redrawQuery, .execute] toIdle) = ("good", 0x202) := by decide
theorem test_run_bounded : outcome (Machine.run (.bounded 1) [.keyDown 3, .execute, .execute] running) = ("good", 0x202) := by decide
/-- 00EE on the empty stack in the last step of a bounded run: a halted end, not a good one. -/
theorem test_run_halted : outcome (Machine.run (.bounded 1) [.execute] (base.placeWord 0x200 0x00EE)) = ("halted", 0x202) := by decide
/-- A key wait is no end. -/
theorem test_run_wait : outcome (Machine.run .idle [.execute] (base.placeWord 0x200 0xF20A)) = ("unfinished", 0x200) := by decide

end Sys2Proof.Tests
end

section
/-! SUPPORT. Which fields of the state a handler can write, said once, and field by field what it can leave in them: the
frame rules of 10_state.md sections 1 to 6, proved from the inversion `exec_next`. -/

namespace Sys2Proof.Machine

/-- `t` is `s` but for the fields the handler of `i` can write. -/
def FieldsWritten (i : Instr) (s t : State) : Prop :=
  match i with
  | .cls => t = { s with fb := t.fb, redraw := t.redraw }
  | .drw _ _ _ => t = { s with v := t.v, fb := t.fb, redraw := t.redraw }
  | .ret | .call _ => t = { s with pc := t.pc, stack := t.stack, halted := t.halted, faultCause := t.faultCause }
  | .skp _ | .sknp _ => t = { s with pc := t.pc, halted := t.halted, faultCause := t.faultCause }
  | .jp _ | .jpV0 _ | .seImm _ _ | .sneImm _ _ | .seReg _ _ | .sneReg _ _ => t = { s with pc := t.pc }
  | .ldImm _ _ | .addImm _ _ | .ldReg _ _ | .orReg _ _ | .andReg _ _ | .xorReg _ _ | .addReg _ _ | .subReg _ _
  | .subnReg _ _ | .shr _ _ | .shl _ _ | .ldVxDt _ => t = { s with v := t.v }
  | .ldVxK _ => t = { s with v := t.v, pc := t.pc }
  | .rnd _ _ => t = { s with v := t.v, randDraws := t.randDraws }
  | .ldI _ | .ldF _ => t = { s with i := t.i }
  | .addI _ | .ldRegs _ => t = { s with v := t.v, i := t.i }
  | .ldB _ => t = { s with mem := t.mem }
  | .stRegs _ => t = { s with mem := t.mem, i := t.i }
  | .ldDtVx _ => t = { s with dt := t.dt }
  | .ldStVx _ => t = { s with st := t.st }
  | .unknown _ => t = { s with unknownReport := t.unknownReport }

/-- The register `r` is a destination of `i` or its flag: the writers of 10_state.md R22 and R23. -/
def WritesReg (i : Instr) (s : State) (r : Reg) : Prop :=
  match i with
  | .ldImm x _ | .addImm x _ | .rnd x _ | .ldReg x _ | .orReg x _ | .andReg x _ | .xorReg x _ | .ldVxDt x
  | .ldVxK x => r = x
  | .addReg x _ | .subReg x _ | .subnReg x _ | .shr x _ | .shl x _ => r = x ∨ r = vf
  | .drw _ _ _ => r = vf
  | .addI x => r = vf ∧ 0xFFF < s.i.toNat + (s.getV x).toNat
  | .ldRegs x => r ≤ x
  | _ => False

theorem State.setV_getV_of_ne {s : State} {x r : Reg} {b : Byte} (h : r ≠ x) : (s.setV x b).getV r = s.getV r := by
  rw [State.setV_getV, if_neg h.symm]

theorem State.setVF_getV_of_ne {s : State} {r : Reg} {b : Byte} (h : r ≠ vf) : (s.setVF b).getV r = s.getV r :=
  State.setV_getV_of_ne h

theorem State.eq_of_setV_getV_ne {s : State} {x r : Reg} {b : Byte} (h : (s.setV x b).getV r ≠ s.getV r) : r = x :=
  of_not_not fun hr => h (State.setV_getV_of_ne hr)

/-- The skip writes `pc` alone. -/
theorem State.skipIf_frame (s : State) (c : Bool) : s.skipIf c = { s with pc := (s.skipIf c).pc } := by
  rw [State.skipIf_eq]; rfl

variable {i : Instr} {s t : State}

/-- A handler leaves every field its instruction does not name. -/
theorem exec_fieldsWritten (h : exec i s = .next t) : FieldsWritten i s t := by
  have hn := exec_next h
  cases i
  case seImm | sneImm | seReg | sneReg => subst hn; exact s.skipIf_frame _
  case ret => obtain ⟨-, rfl⟩ | ⟨_, _, -, rfl⟩ := hn <;> rfl
  case call => obtain ⟨-, rfl⟩ | ⟨-, rfl⟩ := hn <;> rfl
  case skp | sknp =>
    obtain ⟨c, rfl⟩ | ⟨-, rfl⟩ := hn
    · rw [State.skipIf_eq]; rfl
    · rfl
  case ldVxK => obtain ⟨_, rfl⟩ | rfl := hn <;> rfl
  case addI => obtain ⟨-, rfl⟩ | rfl := hn <;> rfl
  case shr | shl => obtain ⟨_, _, _, rfl⟩ := hn; rfl
  case rnd => obtain ⟨_, rfl⟩ := hn; rfl
  case ldB => obtain ⟨_, _, _, rfl⟩ := hn; exact s.storeBytes_eq _ _
  case stRegs x => subst hn; exact congrArg (State.setI · ((s.storeRegs (x.val + 1)).advanceI x).i) (s.storeRegs_eq _)
  case ldRegs x => subst hn; exact congrArg (State.setI · ((s.loadRegs (x.val + 1)).advanceI x).i) (s.loadRegs_eq _)
  case drw x y n => subst hn; exact congrArg (State.setRedraw · true) ((s.setVF 0).plotRows_frame _ _ _).1
  all_goals (subst hn; rfl)

/-- A handler changes no register but a destination of its instruction or its flag. -/
theorem exec_getV_ne {r : Reg} (h : exec i s = .next t) (hne : t.getV r ≠ s.getV r) : WritesReg i s r := by
  have hw := exec_fieldsWritten h
  have hn := exec_next h
  cases i
  case ldImm | addImm | ldReg | orReg | andReg | xorReg | ldVxDt => subst hn; exact State.eq_of_setV_getV_ne hne
  case rnd x nn => obtain ⟨b, rfl⟩ := hn; exact State.eq_of_setV_getV_ne (b := b) hne
  case ldVxK =>
    obtain ⟨_, rfl⟩ | rfl := hn
    · exact State.eq_of_setV_getV_ne hne
    · exact absurd rfl hne
  case addReg | subReg | subnReg =>
    subst hn
    by_contra hr
    obtain ⟨hx, hf⟩ := not_or.1 hr
    exact hne ((State.setVF_getV_of_ne hf).trans (State.setV_getV_of_ne hx))
  case shr | shl =>
    obtain ⟨_, _, _, rfl⟩ := hn
    by_contra hr
    obtain ⟨hx, hf⟩ := not_or.1 hr
    exact hne ((State.setV_getV_of_ne hx).trans ((State.setVF_getV_of_ne hf).trans (State.setV_getV_of_ne hx)))
  case drw x y n =>
    by_contra hr
    subst hn
    exact hne ((((s.setVF 0).plotRows_frame _ _ _).2 r hr).trans (State.setVF_getV_of_ne hr))
  case addI =>
    obtain ⟨hsum, rfl⟩ | rfl := hn
    · exact ⟨State.eq_of_setV_getV_ne hne, hsum⟩
    · exact absurd rfl hne
  case ldRegs x =>
    by_contra hr
    subst hn
    have hlt : ¬ r.val < x.val + 1 := fun hl => hr (Fin.le_def.2 (by omega))
    exact hne ((s.loadRegs_getV (m := x.val + 1) (by omega) r).trans (if_neg hlt))
  all_goals exact absurd (congrArg (State.getV · r) hw) hne

/-- The call stack after a handler: as it was, or one entry more after CALL on a stack that is not full, or one entry less
after RET (10_state.md R27). -/
theorem exec_stack (h : exec i s = .next t) :
    t.stack = s.stack ∨
    (∃ nnn, i = .call nnn ∧ s.params.stackDepth ≠ some s.stack.length ∧ t.stack = s.stack ++ [s.pc]) ∨
    (i = .ret ∧ ∃ w, s.stack = t.stack ++ [w]) := by
  have hw := exec_fieldsWritten h
  have hn := exec_next h
  cases i
  case ret =>
    obtain ⟨-, rfl⟩ | ⟨_, w, hs, rfl⟩ := hn
    · exact .inl rfl
    · exact .inr (.inr ⟨rfl, w, hs⟩)
  case call nnn =>
    obtain ⟨-, rfl⟩ | ⟨hfull, rfl⟩ := hn
    · exact .inl rfl
    · exact .inr (.inl ⟨nnn, rfl, hfull, rfl⟩)
  all_goals exact .inl (congrArg State.stack hw :)

/-- No handler writes the construction parameters (10_state.md R36). -/
theorem exec_params (h : exec i s = .next t) : t.params = s.params := by
  have hw := exec_fieldsWritten h
  cases i <;> exact (congrArg State.params hw :)

/-- No handler writes the key state (10_state.md R33). -/
theorem exec_key (h : exec i s = .next t) : t.key = s.key := by
  have hw := exec_fieldsWritten h
  cases i <;> exact (congrArg State.key hw :)

/-- `halted` and `fault_cause` after a handler: as they were, or both written by a fault (60_exceptions.md R266). -/
theorem exec_halted (h : exec i s = .next t) :
    (t.halted = s.halted ∧ t.faultCause = s.faultCause) ∨ (t.halted = true ∧ t.faultCause.isSome = true) := by
  have hw := exec_fieldsWritten h
  have hn := exec_next h
  cases i
  case ret =>
    obtain ⟨-, rfl⟩ | ⟨_, _, -, rfl⟩ := hn
    · exact .inr ⟨rfl, rfl⟩
    · exact .inl ⟨rfl, rfl⟩
  case call =>
    obtain ⟨-, rfl⟩ | ⟨-, rfl⟩ := hn
    · exact .inr ⟨rfl, rfl⟩
    · exact .inl ⟨rfl, rfl⟩
  case skp | sknp =>
    obtain ⟨_, rfl⟩ | ⟨-, rfl⟩ := hn
    · exact .inl ⟨s.skipIf_halted _, s.skipIf_faultCause _⟩
    · exact .inr ⟨rfl, rfl⟩
  all_goals exact .inl ⟨(congrArg State.halted hw :), (congrArg State.faultCause hw :)⟩

/-- Only LD DT, Vx writes the delay timer (10_state.md R28). -/
theorem exec_dt_ne (h : exec i s = .next t) (hne : t.dt ≠ s.dt) : ∃ x, i = .ldDtVx x ∧ t.dt = s.getV x := by
  have hw := exec_fieldsWritten h
  have hn := exec_next h
  cases i
  case ldDtVx x => exact ⟨x, rfl, congrArg State.dt hn⟩
  all_goals exact absurd (congrArg State.dt hw) hne

/-- Only LD ST, Vx writes the sound timer (10_state.md R29). -/
theorem exec_st_ne (h : exec i s = .next t) (hne : t.st ≠ s.st) : ∃ x, i = .ldStVx x ∧ t.st = s.getV x := by
  have hw := exec_fieldsWritten h
  have hn := exec_next h
  cases i
  case ldStVx x => exact ⟨x, rfl, congrArg State.st hn⟩
  all_goals exact absurd (congrArg State.st hw) hne

/-- Under `LOADSTORE_I_MODE = unchanged`, Fx55 and Fx65 leave `I` (43_index_memory.md R177). -/
theorem State.advanceI_i_of_unchanged (s : State) (x : Reg) (hm : s.params.loadStoreIMode = .unchanged) :
    (s.advanceI x).i = s.i := by
  have hi := s.i.isLt
  have hinc : indexInc s.params.loadStoreIMode x = 0 := by rw [hm]; rfl
  rw [State.advanceI_eq (by omega), hinc]
  exact BitVec.eq_of_toNat_eq (by simpa using hi)

end Sys2Proof.Machine
end

section
/-! SUPPORT. The bounds the invariant of the block needs: the values `pc` and `I` take after each instruction that writes
them (10_state.md R25, R26). -/

namespace Sys2Proof.Machine

theorem zext16_le (nnn : Addr) : (zext16 nnn).toNat ≤ 0xFFF := by
  have := nnn.isLt
  simp only [zext16, BitVec.toNat_setWidth]
  omega

theorem offsetJumpTarget_le (b : Byte) (nnn : Addr) : (offsetJumpTarget b nnn).toNat ≤ 0x10FE := by
  have := b.isLt
  have := nnn.isLt
  simp only [offsetJumpTarget, trunc16_toNat]
  omega

theorem glyphAddr_le (b : Byte) : (glyphAddr b).toNat ≤ 0xFFF := by
  have hlow : 5 * (b.toNat % 16) ≤ 75 := by omega
  rw [glyphAddr, trunc16_toNat, Nat.mod_eq_of_lt (by omega)]
  omega

theorem indexSum_le {w : Word} (hw : w.toNat ≤ 0xFFF) (b : Byte) : (indexSum w b).toNat ≤ 0xFFF := by
  have := b.isLt
  unfold indexSum
  split
  · rw [trunc16_toNat]
    omega
  · next hover =>
    have hsum : w.toNat + b.toNat ≤ 0xFFF := by simpa [indexOverflows] using hover
    rw [trunc16_toNat]
    omega

theorem pcReachable_of_le {w : Word} (h : w.toNat ≤ 0x10FE) : pcReachable w := .inl h

variable {i : Instr} {s t : State}

theorem State.skipIf_pcReachable (hpc : s.pc.toNat ≤ 0xFFF) (c : Bool) : pcReachable (s.skipIf c).pc := by
  rw [State.skipIf_eq, State.setPc_pc]
  apply pcReachable_of_le
  split
  · rw [trunc16_toNat]; omega
  · omega

/-- The rewind of Fx0A leaves the two values above 0x10FE when the fetch wrapped (log entry 12). -/
theorem State.rewind_pcReachable (hpc : s.pc.toNat ≤ 0xFFF) : pcReachable s.rewind.pc := by
  rw [State.rewind_pc, pcReachable, BitVec.toNat_sub]
  simp
  omega

theorem exec_pcReachable (hpc : s.pc.toNat ≤ 0xFFF) (hstack : ∀ w ∈ s.stack, w.toNat ≤ 0xFFF)
    (h : exec i s = .next t) : pcReachable t.pc := by
  have hw := exec_fieldsWritten h
  have hn := exec_next h
  have hkept : pcReachable s.pc := pcReachable_of_le (by omega)
  have hjump : ∀ w : Word, w.toNat ≤ 0xFFF → pcReachable w := fun w hle => pcReachable_of_le (by omega)
  cases i
  case jp nnn => subst hn; exact hjump _ (zext16_le nnn)
  case jpV0 nnn => subst hn; exact pcReachable_of_le (offsetJumpTarget_le _ nnn)
  case ret =>
    obtain ⟨-, rfl⟩ | ⟨_, w, hs, rfl⟩ := hn
    · exact hkept
    · exact hjump w (hstack w (by simp [hs]))
  case call nnn =>
    obtain ⟨-, rfl⟩ | ⟨-, rfl⟩ := hn
    · exact hkept
    · exact hjump _ (zext16_le nnn)
  case seImm | sneImm | seReg | sneReg => subst hn; exact State.skipIf_pcReachable hpc _
  case skp | sknp =>
    obtain ⟨c, rfl⟩ | ⟨-, rfl⟩ := hn
    · exact State.skipIf_pcReachable hpc c
    · exact hkept
  case ldVxK =>
    obtain ⟨_, rfl⟩ | rfl := hn
    · exact hkept
    · exact State.rewind_pcReachable hpc
  all_goals exact (congrArg State.pc hw :) ▸ hkept

/-- Every handler keeps memory canonical (log entry 7). -/
theorem exec_mem_wf (hwf : Memory.wf s.mem = true) (h : exec i s = .next t) : Memory.wf t.mem = true := by
  have hw := exec_fieldsWritten h
  have hn := exec_next h
  cases i
  case ldB => obtain ⟨_, _, _, rfl⟩ := hn; exact State.storeBytes_wf hwf
  case stRegs => subst hn; exact State.storeRegs_wf hwf _
  all_goals exact (congrArg State.mem hw :) ▸ hwf

end Sys2Proof.Machine
end

section
/-! The frame rules of 10_state.md over every instruction: who writes a register, the flag, `I`, the stack, the framebuffer,
the timers. -/

namespace Sys2Proof.Machine

/-- Settles O44: a changed register is a destination of the instruction, and VF is excluded. -/
theorem onlyDestinationsAndFlagsAreWritten : Obligations.OnlyDestinationsAndFlagsAreWritten := by
  intro i s t r h hr hne
  have hw := exec_getV_ne h hne
  cases i
  case ldImm x nn | addImm x nn | rnd x nn => subst hw; exact .inl ⟨nn, by simp⟩
  case ldReg x y | orReg x y | andReg x y | xorReg x y => subst hw; exact .inr (.inl ⟨y, by simp⟩)
  case addReg x y | subReg x y | subnReg x y | shr x y | shl x y =>
    obtain rfl := hw.resolve_right hr
    exact .inr (.inl ⟨y, by simp⟩)
  case ldVxDt => subst hw; exact .inr (.inr (.inl rfl))
  case ldVxK => subst hw; exact .inr (.inr (.inr (.inl rfl)))
  case ldRegs x => exact .inr (.inr (.inr (.inr ⟨x, hw, rfl⟩)))
  case addI => exact absurd hw.1 hr
  case drw => exact absurd hw hr
  all_goals exact hw.elim

/-- Settles O45: a changed VF is a destination or the flag of the instruction. -/
theorem onlyFlagWritersChangeTheFlag : Obligations.OnlyFlagWritersChangeTheFlag := by
  intro i s t h hne
  have hw := exec_getV_ne h hne
  cases i
  case ldImm x nn | addImm x nn | rnd x nn => subst hw; exact .inl ⟨nn, by simp⟩
  case ldReg x y | orReg x y | andReg x y | xorReg x y => subst hw; exact .inr (.inl ⟨y, by simp⟩)
  case addReg x y | subReg x y | subnReg x y | shr x y | shl x y | drw x y n =>
    exact .inr (.inr (.inl ⟨x, y, by simp⟩))
  case addI x => exact .inr (.inr (.inr (.inl ⟨x, rfl, hw.2⟩)))
  case ldVxDt => subst hw; simp
  case ldVxK => subst hw; simp
  case ldRegs x => obtain rfl : x = 15 := Fin.last_le_iff.1 hw; simp
  all_goals exact hw.elim

/-- Settles O46: Fx55 and Fx65 leave `I` under `unchanged`, and every other instruction but the three leaves it always. -/
theorem onlyIndexInstructionsWriteTheIndex : Obligations.OnlyIndexInstructionsWriteTheIndex := by
  intro i s t h hne
  have hw := exec_fieldsWritten h
  have hn := exec_next h
  cases i
  case ldI nnn => exact .inl ⟨nnn, rfl⟩
  case addI x => exact .inr (.inl ⟨x, .inl rfl⟩)
  case ldF x => exact .inr (.inl ⟨x, .inr rfl⟩)
  case stRegs x =>
    refine .inr (.inr ⟨fun hm => hne ?_, x, .inl rfl⟩)
    rw [hn, State.advanceI_i_of_unchanged _ _ (by simpa using hm), State.storeRegs_i]
  case ldRegs x =>
    refine .inr (.inr ⟨fun hm => hne ?_, x, .inr rfl⟩)
    rw [hn, State.advanceI_i_of_unchanged _ _ (by simpa using hm), State.loadRegs_i]
  all_goals exact absurd (congrArg State.i hw) hne

/-- Settles O47: the three ways a handler leaves the stack, less the one that keeps it. -/
theorem onlyCallAndReturnUseTheStack : Obligations.OnlyCallAndReturnUseTheStack := by
  intro i s t h hne
  obtain hkept | ⟨nnn, hi, -, hpush⟩ | hret := exec_stack h
  · exact absurd hkept hne
  · exact .inl ⟨nnn, hi, hpush⟩
  · exact .inr hret

/-- Settles O49: every instruction but CLS and DRW leaves the framebuffer and the redraw flag. -/
theorem onlyClearAndDrawTouchTheFramebuffer : Obligations.OnlyClearAndDrawTouchTheFramebuffer := by
  intro i s t h
  refine ⟨?_, fun hne => ?_⟩
  · have hn := exec_next h
    rintro (rfl | ⟨x, y, n, rfl⟩) <;> exact congrArg State.redraw hn
  · have hw := exec_fieldsWritten h
    cases i
    case cls => exact .inl rfl
    case drw x y n => exact .inr ⟨x, y, n, rfl⟩
    all_goals exact absurd hne (not_or.2 ⟨not_not.2 (congrArg State.fb hw :), not_not.2 (congrArg State.redraw hw :)⟩)

/-- Settles O50: one rule of the frame per field. -/
theorem keysParametersAndTimersAreKept : Obligations.KeysParametersAndTimersAreKept :=
  fun _ _ _ h => ⟨exec_key h, exec_params h, exec_dt_ne h, exec_st_ne h⟩

end Sys2Proof.Machine
end

section
/-! The invariant of the block: every handler keeps it, so every step, every host operation and every driven run do. -/

namespace Sys2Proof.Machine

variable {i : Instr} {s t : State}

theorem exec_stackAddrs (hpc : s.pc.toNat ≤ 0xFFF) (hs : ∀ w ∈ s.stack, w.toNat ≤ 0xFFF) (h : exec i s = .next t) :
    ∀ w ∈ t.stack, w.toNat ≤ 0xFFF := by
  intro w hw
  obtain hkept | ⟨_, -, -, hpush⟩ | ⟨-, top, hpop⟩ := exec_stack h
  · exact hs w (hkept ▸ hw)
  · rw [hpush, List.mem_append, List.mem_singleton] at hw
    obtain hold | rfl := hw
    · exact hs w hold
    · exact hpc
  · exact hs w (hpop ▸ List.mem_append_left _ hw)

/-- CALL pushes on a stack that is not full only, so a stack within its depth stays within it (60_exceptions.md R263). -/
theorem exec_stackFits (hs : ∀ d, s.params.stackDepth = some d → s.stack.length ≤ d) (h : exec i s = .next t) :
    ∀ d, t.params.stackDepth = some d → t.stack.length ≤ d := by
  intro d hd
  rw [exec_params h] at hd
  have hle := hs d hd
  obtain hkept | ⟨_, -, hfull, hpush⟩ | ⟨-, top, hpop⟩ := exec_stack h
  · exact hkept ▸ hle
  · have hne : d ≠ s.stack.length := fun he => hfull (he ▸ hd)
    rw [hpush, List.length_append, List.length_singleton]
    omega
  · rw [hpop, List.length_append, List.length_singleton] at hle
    omega

theorem exec_haltCause (hs : s.halted = s.faultCause.isSome) (h : exec i s = .next t) :
    t.halted = t.faultCause.isSome := by
  obtain ⟨hh, hc⟩ | ⟨hh, hc⟩ := exec_halted h
  · rw [hh, hc, hs]
  · rw [hh, hc]

theorem exec_indexRange (hm : s.params.loadStoreIMode = .unchanged) (hi : s.i.toNat ≤ 0xFFF) (h : exec i s = .next t) :
    t.i.toNat ≤ 0xFFF := by
  by_cases hkept : t.i = s.i
  · exact hkept ▸ hi
  have hn := exec_next h
  obtain ⟨nnn, rfl⟩ | ⟨x, rfl | rfl⟩ | ⟨hmode, -⟩ := onlyIndexInstructionsWriteTheIndex i s t h hkept
  · subst hn; exact zext16_le nnn
  · obtain ⟨-, rfl⟩ | rfl := hn <;> exact indexSum_le hi _
  · subst hn; exact glyphAddr_le _
  · exact absurd hm hmode

/-- Every handler keeps the invariant, from a `pc` the fetch leaves. -/
theorem exec_keeps_inv (hs : s.Inv) (hpc : s.pc.toNat ≤ 0xFFF) (h : exec i s = .next t) : t.Inv where
  memWf := exec_mem_wf hs.memWf h
  stackAddrs := exec_stackAddrs hpc hs.stackAddrs h
  stackFits := exec_stackFits hs.stackFits h
  haltCause := exec_haltCause hs.haltCause h
  pcRange := exec_pcReachable hpc hs.stackAddrs h
  indexRange hm := by
    rw [exec_params h] at hm
    exact exec_indexRange hm (hs.indexRange hm) h

theorem State.beforeHandler_pc_le (s : State) (due : Bool) : (s.beforeHandler due).pc.toNat ≤ 0xFFF := by
  have hlt := mod_memSize_lt (s.beginStep.pc.toNat + 2)
  rw [← State.fetch_pc_toNat, memSize] at hlt
  exact Nat.le_of_lt_succ hlt

/-- The fetch and the tick keep the invariant: they write `pc`, the timers and the model's own fields alone. -/
theorem State.Inv.beforeHandler (hs : s.Inv) (due : Bool) : (s.beforeHandler due).Inv where
  memWf := hs.memWf
  stackAddrs := hs.stackAddrs
  stackFits := hs.stackFits
  haltCause := hs.haltCause
  pcRange := pcReachable_of_le ((s.beforeHandler_pc_le due).trans (by decide))
  indexRange := hs.indexRange

/-- Settles O56: the fetch leaves `pc` at most 0xFFF, and from there every handler keeps the invariant. -/
theorem stepKeepsTheInvariant : Obligations.StepKeepsTheInvariant := by
  intro s t hs h
  obtain ⟨-, hexec⟩ := step_cases h
  exact exec_keeps_inv (hs.beforeHandler _) (s.beforeHandler_pc_le _) hexec

/-- The invariant says nothing of the key state, the redraw flag and the load flag, which the host writes. -/
theorem State.Inv.withHostFields (hs : s.Inv) (key : Vector Bool 16) (redraw loadable : Bool) :
    ({ s with key := key, redraw := redraw, loadable := loadable } : State).Inv :=
  ⟨hs.memWf, hs.stackAddrs, hs.stackFits, hs.haltCause, hs.pcRange, hs.indexRange⟩

theorem State.Inv.storeBytes (hs : s.Inv) (a : Nat) (bs : List Byte) : (s.storeBytes a bs).Inv := by
  have hwf := State.storeBytes_wf (a := a) (bs := bs) hs.memWf
  rw [State.storeBytes_eq]
  exact ⟨hwf, hs.stackAddrs, hs.stackFits, hs.haltCause, hs.pcRange, hs.indexRange⟩

theorem State.Inv.loadProgram {bytes : List Byte} (hs : s.Inv) (h : s.loadProgram bytes = .next t) : t.Inv := by
  rw [State.loadProgram] at h
  split at h
  · cases h
    exact (hs.storeBytes loadAddr bytes).withHostFields _ _ false
  · cases h

/-- Settles O60: `execute` by O56; the key events, the load and the redraw query write fields the invariant does not name, or
memory in canonical form. -/
theorem hostOperationsKeepTheInvariant : Obligations.HostOperationsKeepTheInvariant := by
  intro op s t hs h
  cases op with
  | execute => exact stepKeepsTheInvariant s t hs h
  | keyDown k => cases h; exact hs.withHostFields _ _ _
  | keyUp k => cases h; exact hs.withHostFields _ _ _
  | loadProgram bytes => exact hs.loadProgram h
  | redrawQuery => cases h; exact hs.withHostFields _ _ _

/-- The reset values meet the invariant under any parameters. -/
theorem reset_withParams_inv (p : Params) : ({ State.reset with params := p } : State).Inv where
  memWf := rfl
  stackAddrs _ hw := absurd hw List.not_mem_nil
  stackFits d _ := d.zero_le
  haltCause := rfl
  pcRange := pcReachable_of_le (show (0x0200 : Word).toNat ≤ 0x10FE by decide)
  indexRange _ := show (0x0000 : Word).toNat ≤ 0xFFF by decide

/-- Settles O55: the reset values under the parameters of `Config`. -/
theorem resetMeetsTheInvariant : Obligations.ResetMeetsTheInvariant := reset_withParams_inv Config.params

/-- Settles O59: construction stores the font over the reset values. -/
theorem constructionMeetsTheInvariant : Obligations.ConstructionMeetsTheInvariant :=
  fun p font => (reset_withParams_inv p).storeBytes 0 font.toList

/-- Settles O57, by induction on how the host drives the block. -/
theorem everyDrivenRunMeetsTheInvariant : Obligations.EveryDrivenRunMeetsTheInvariant := by
  intro s hs
  induction hs with
  | construct p font => exact constructionMeetsTheInvariant p font
  | perform op s t _ h ih => exact hostOperationsKeepTheInvariant op s t ih h

/-- Settles O52: the reset table, read off the state and the default font. -/
theorem resetStateIsTheConstructedState : Obligations.ResetStateIsTheConstructedState := by
  have hv : ∀ r, State.reset.getV r = 0 := by decide
  have hkey : ∀ k : Fin 16, State.reset.key[k] = false := by decide
  have hglyph0 : ((List.range 5).map fun k => State.reset.memRead k) = [0xF0, 0x90, 0x90, 0x90, 0xF0] := by decide
  have hglyphF : ((List.range 5).map fun k => State.reset.memRead (0x4B + k)) = [0xF0, 0x80, 0xF0, 0x80, 0x80] := by
    decide
  exact ⟨hv, rfl, rfl, rfl, rfl, rfl, Framebuffer.pixel_clear, rfl, hkey, rfl, rfl, hglyph0, hglyphF, rfl, rfl, rfl⟩

end Sys2Proof.Machine
end

section
/-! SUPPORT. Decoding and encoding undo each other: the three patterns of an encoded word (30_encoding.md R71, R76) and its
fields, and the two bytes memory holds it in (20_memory.md R53). -/

namespace Sys2Proof.Laws.RowMatch

/-- The family RowMatch over every instruction. -/
theorem statement : ∀ i, Statement i
  | .cls => cls | .ret => ret | .jp nnn => jp nnn | .call nnn => call nnn | .seImm x nn => seImm x nn
  | .sneImm x nn => sneImm x nn | .seReg x y => seReg x y | .ldImm x nn => ldImm x nn | .addImm x nn => addImm x nn
  | .ldReg x y => ldReg x y | .orReg x y => orReg x y | .andReg x y => andReg x y | .xorReg x y => xorReg x y
  | .addReg x y => addReg x y | .subReg x y => subReg x y | .shr x y => shr x y | .subnReg x y => subnReg x y
  | .shl x y => shl x y | .sneReg x y => sneReg x y | .ldI nnn => ldI nnn | .jpV0 nnn => jpV0 nnn
  | .rnd x nn => rnd x nn | .drw x y n => drw x y n | .skp x => skp x | .sknp x => sknp x | .ldVxDt x => ldVxDt x
  | .ldVxK x => ldVxK x | .ldDtVx x => ldDtVx x | .ldStVx x => ldStVx x | .addI x => addI x | .ldF x => ldF x
  | .ldB x => ldB x | .stRegs x => stRegs x | .ldRegs x => ldRegs x | .unknown w => unknown w

/-- An instruction with a row is not the unknown one, so its word selects that row without more. -/
theorem encode_selects {i : Instr} {r : OpcodeRow} (h : row i = some r) : r ∈ opcodeRows ∧ r.selects (encode i) = true := by
  have hwf : i.wellFormed = true := by
    cases i
    case unknown => cases h
    all_goals rfl
  simpa only [h] using statement i hwf

theorem eq_unknown_of_row_eq_none {i : Instr} (h : row i = none) : i = .unknown (encode i) := by
  cases i
  case unknown => rfl
  all_goals cases h

end Sys2Proof.Laws.RowMatch

namespace Sys2Proof

open Laws.RowMatch (row encode_selects eq_unknown_of_row_eq_none)

/-- A word is the word of its two bytes. -/
theorem wordOfBytes_wordBytes (w : Word) : wordOfBytes (w.extractLsb' 8 8) (w.extractLsb' 0 8) = w :=
  (BitVec.extractLsb'_append_extractLsb'_eq_extractLsb' rfl).trans BitVec.extractLsb'_eq_self

theorem decodeBytes_wordBytes (w : Word) (rest : List Byte) : decodeBytes (wordBytes w ++ rest) = .ok (decode w, rest) :=
  congrArg (fun w' => Except.ok (decode w', rest)) (wordOfBytes_wordBytes w)

@[simp] theorem nibbleNum_nibbleBits (r : Fin 16) : nibbleNum (nibbleBits r) = r :=
  Fin.ext (Nat.mod_eq_of_lt r.isLt)

@[simp] theorem nibbleBits_nibbleNum (b : BitVec 4) : nibbleBits (nibbleNum b) = b := (BitVec.ofNat_toNat 4 b).trans b.setWidth_eq

/-! The fields an encoded word holds. -/

theorem fields_encNnn (c : BitVec 4) (nnn : Addr) :
    fields (encNnn c nnn) = { fields (encNnn c nnn) with c := c, nnn := nnn } := by
  have hc : (encNnn c nnn).extractLsb' 12 4 = c := BitVec.extractLsb'_append_eq_left
  have hnnn : (encNnn c nnn).extractLsb' 0 12 = nnn := BitVec.extractLsb'_append_eq_right
  simp only [fields, hc, hnnn]

theorem fields_encXnn (c : BitVec 4) (x : Reg) (nn : Byte) :
    fields (encXnn c x nn) = { fields (encXnn c x nn) with c := c, x := x, nn := nn } := by
  have hc : (encXnn c x nn).extractLsb' 12 4 = c :=
    (BitVec.extractLsb'_append_eq_of_le (by decide)).trans BitVec.extractLsb'_append_eq_left
  have hx : (encXnn c x nn).extractLsb' 8 4 = nibbleBits x :=
    (BitVec.extractLsb'_append_eq_of_le (by decide)).trans BitVec.extractLsb'_append_eq_right
  have hnn : (encXnn c x nn).extractLsb' 0 8 = nn := BitVec.extractLsb'_append_eq_right
  simp only [fields, hc, hx, hnn, nibbleNum_nibbleBits]

theorem fields_encXyn (c : BitVec 4) (x y n : Fin 16) :
    fields (encXyn c x y n) = { fields (encXyn c x y n) with c := c, x := x, y := y, n := n } := by
  have hc : (encXyn c x y n).extractLsb' 12 4 = c :=
    ((BitVec.extractLsb'_append_eq_of_le (by decide)).trans (BitVec.extractLsb'_append_eq_of_le (by decide))).trans
      BitVec.extractLsb'_append_eq_left
  have hx : (encXyn c x y n).extractLsb' 8 4 = nibbleBits x :=
    ((BitVec.extractLsb'_append_eq_of_le (by decide)).trans (BitVec.extractLsb'_append_eq_of_le (by decide))).trans
      BitVec.extractLsb'_append_eq_right
  have hy : (encXyn c x y n).extractLsb' 4 4 = nibbleBits y :=
    (BitVec.extractLsb'_append_eq_of_le (by decide)).trans BitVec.extractLsb'_append_eq_right
  have hn : (encXyn c x y n).extractLsb' 0 4 = nibbleBits n := BitVec.extractLsb'_append_eq_right
  simp only [fields, hc, hx, hy, hn, nibbleNum_nibbleBits]

/-! A word decodes to the instruction that its own pattern's fields select, whatever the other fields are. -/

section
variable {c : BitVec 4} {x y n : Fin 16} {nn : Byte} {nnn : Addr} {i : Instr}

theorem decode_encNnn (h : ∀ w (f : Fields), decodeFields w { f with c := c, nnn := nnn } = i) : decode (encNnn c nnn) = i := by
  rw [decode, fields_encNnn]
  exact h _ _

theorem decode_encXnn (h : ∀ w (f : Fields), decodeFields w { f with c := c, x := x, nn := nn } = i) :
    decode (encXnn c x nn) = i := by
  rw [decode, fields_encXnn]
  exact h _ _

theorem decode_encXyn (h : ∀ w (f : Fields), decodeFields w { f with c := c, x := x, y := y, n := n } = i) :
    decode (encXyn c x y n) = i := by
  rw [decode, fields_encXyn]
  exact h _ _

end

/-! A word is its category over its other fields, in each of the three patterns. -/

section
variable {w : Word} {c : BitVec 4}

theorem encNnn_fields (h : (fields w).c.toNat = c.toNat) : encNnn c (fields w).nnn = w := by
  obtain rfl : (fields w).c = c := BitVec.eq_of_toNat_eq h
  exact (BitVec.extractLsb'_append_extractLsb'_eq_extractLsb' rfl).trans BitVec.extractLsb'_eq_self

theorem extractLsb'_high8 (w : Word) : w.extractLsb' 12 4 ++ w.extractLsb' 8 4 = w.extractLsb' 8 8 :=
  BitVec.extractLsb'_append_extractLsb'_eq_extractLsb' rfl

theorem encXnn_fields (h : (fields w).c.toNat = c.toNat) {nn : Byte} (hnn : (fields w).nn.toNat = nn.toNat) :
    encXnn c (fields w).x nn = w := by
  obtain rfl : (fields w).c = c := BitVec.eq_of_toNat_eq h
  obtain rfl : (fields w).nn = nn := BitVec.eq_of_toNat_eq hnn
  show w.extractLsb' 12 4 ++ nibbleBits (nibbleNum (w.extractLsb' 8 4)) ++ w.extractLsb' 0 8 = w
  rw [nibbleBits_nibbleNum, extractLsb'_high8]
  exact wordOfBytes_wordBytes w

theorem encXyn_fields (h : (fields w).c.toNat = c.toNat) {n : Fin 16} (hn : (fields w).n.val = n.val) :
    encXyn c (fields w).x (fields w).y n = w := by
  obtain rfl : (fields w).c = c := BitVec.eq_of_toNat_eq h
  obtain rfl : (fields w).n = n := Fin.ext hn
  show w.extractLsb' 12 4 ++ nibbleBits (nibbleNum (w.extractLsb' 8 4)) ++ nibbleBits (nibbleNum (w.extractLsb' 4 4)) ++
    nibbleBits (nibbleNum (w.extractLsb' 0 4)) = w
  rw [nibbleBits_nibbleNum, nibbleBits_nibbleNum, nibbleBits_nibbleNum, extractLsb'_high8]
  have hlow : w.extractLsb' 8 8 ++ w.extractLsb' 4 4 = w.extractLsb' 4 12 :=
    BitVec.extractLsb'_append_extractLsb'_eq_extractLsb' rfl
  rw [hlow]
  exact (BitVec.extractLsb'_append_extractLsb'_eq_extractLsb' rfl).trans BitVec.extractLsb'_eq_self

end

theorem encode_decodeSystem (w : Word) : encode (decodeSystem w) = w := by
  unfold decodeSystem
  split
  · next h => exact h.symm
  split
  · next h => exact h.symm
  · rfl

theorem encode_decodeAlu {w : Word} (h : (fields w).c.toNat = 0x8) : encode (decodeAlu w (fields w)) = w := by
  unfold decodeAlu
  split
  case h_10 => rfl
  all_goals exact encXyn_fields h ‹_›

theorem encode_decodeKey {w : Word} (h : (fields w).c.toNat = 0xE) : encode (decodeKey w (fields w)) = w := by
  unfold decodeKey
  split
  case h_3 => rfl
  all_goals exact encXnn_fields h ‹_›

theorem encode_decodeMisc {w : Word} (h : (fields w).c.toNat = 0xF) : encode (decodeMisc w (fields w)) = w := by
  unfold decodeMisc
  split
  case h_10 => rfl
  all_goals exact encXnn_fields h ‹_›

/-- Every word is the encoding of what it decodes to: the branch taken fixes its category and sub-selector. -/
theorem encode_decode (w : Word) : encode (decode w) = w := by
  unfold decode decodeFields
  split
  case h_1 => exact encode_decodeSystem w
  case h_2 | h_3 | h_11 | h_12 => exact encNnn_fields ‹_›
  case h_4 | h_5 | h_7 | h_8 | h_13 => exact encXnn_fields ‹_› rfl
  case h_6 | h_10 =>
    split
    · exact encXyn_fields ‹_› ‹_›
    · rfl
  case h_9 => exact encode_decodeAlu ‹_›
  case h_14 => exact encXyn_fields ‹_› rfl
  case h_15 => exact encode_decodeKey ‹_›
  case h_16 => exact encode_decodeMisc ‹_›
  case h_17 => rfl

/-- A word that selects no row decodes to the unknown instruction: the row of any other decoded instruction would be
selected by the word (30_encoding.md R78). -/
theorem decode_of_selectsNoRow {w : Word} (h : selectsNoRow w = true) : decode w = .unknown w := by
  cases hrow : row (decode w) with
  | none => rw [eq_unknown_of_row_eq_none hrow, encode_decode]
  | some r =>
    obtain ⟨hmem, hsel⟩ := encode_selects hrow
    rw [encode_decode] at hsel
    have hnot := List.all_eq_true.1 h r hmem
    rw [hsel] at hnot
    cases hnot

/-- The decoder undoes the encoder: the instruction's pattern gives back its fields, and an unknown word selects no row. -/
theorem decode_encode {i : Instr} (h : i.wellFormed = true) : decode (encode i) = i := by
  cases i
  case unknown w => exact decode_of_selectsNoRow h
  case cls | ret => rfl
  case jp | call | ldI | jpV0 => exact decode_encNnn fun _ _ => rfl
  case seImm | sneImm | ldImm | addImm | rnd | skp | sknp | ldVxDt | ldVxK | ldDtVx | ldStVx | addI | ldF | ldB | stRegs |
      ldRegs =>
    exact decode_encXnn fun _ _ => rfl
  all_goals exact decode_encXyn fun _ _ => rfl

/-- Settles O2: the two bytes are those of the word of `i`, which decodes to `i`. -/
theorem decodeOfEncodeIsIdentity : Obligations.DecodeOfEncodeIsIdentity := by
  intro i rest h
  rw [decodeBytes_wordBytes, decode_encode h]

end Sys2Proof
end

section
/-! SUPPORT. Memory through the handlers: reads agree modulo 4096, what the four memory operations answer under
`FX_MEMORY_OPS = conventional`, how far they advance `I`, and the state a step hands to the handler. -/

namespace Sys2Proof.Machine

variable {i : Instr} {s t : State} {x : Reg}

/-- `MemRead` reduces its address modulo 4096 (20_memory.md R51). -/
theorem State.memRead_congr (s : State) {a b : Nat} (h : a % memSize = b % memSize) : s.memRead a = s.memRead b :=
  congrArg (Memory.read s.mem) h

theorem State.memRead_of_mem (h : t.mem = s.mem) (a : Nat) : t.memRead a = s.memRead a :=
  congrArg (Memory.read · (a % memSize)) h

theorem State.ifConventional_next (h : s.params.fxMemoryOps = .conventional) (t : State) :
    s.ifConventional t = .next t := by
  rw [State.ifConventional, h]

theorem exec_ldB (h : s.params.fxMemoryOps = .conventional) :
    exec (.ldB x) s = .next (s.storeBytes s.i.toNat [hundreds (s.getV x), tens (s.getV x), units (s.getV x)]) :=
  State.ifConventional_next h _

theorem exec_stRegs (h : s.params.fxMemoryOps = .conventional) :
    exec (.stRegs x) s = .next ((s.storeRegs (x.val + 1)).advanceI x) :=
  State.ifConventional_next h _

theorem exec_ldRegs (h : s.params.fxMemoryOps = .conventional) :
    exec (.ldRegs x) s = .next ((s.loadRegs (x.val + 1)).advanceI x) :=
  State.ifConventional_next h _

theorem hundreds_toNat (b : Byte) : (hundreds b).toNat = b.toNat / 100 := by
  have := b.isLt
  rw [hundreds, trunc8_toNat]
  omega

theorem tens_toNat (b : Byte) : (tens b).toNat = b.toNat / 10 % 10 := by
  rw [tens, trunc8_toNat]
  omega

theorem units_toNat (b : Byte) : (units b).toNat = b.toNat % 10 := by
  rw [units, trunc8_toNat]
  omega

theorem indexInc_eq_tableInc (m : LoadStoreIMode) (x : Reg) : indexInc m x = tableInc m x.val := by
  cases m <;> rfl

/-- `I` after Fx55 or Fx65, while the exact sum fits 16 bits (43_index_memory.md R177). -/
theorem State.advanceI_i_toNat (h : s.i.toNat + tableInc s.params.loadStoreIMode x.val < 65536) :
    (s.advanceI x).i.toNat = s.i.toNat + tableInc s.params.loadStoreIMode x.val := by
  rw [← indexInc_eq_tableInc] at h ⊢
  rw [State.advanceI_eq h, State.setI_i, trunc16_toNat, Nat.mod_eq_of_lt h]

/-- The word the next fetch reads, from any addresses that agree with its two modulo 4096. -/
theorem State.nextWord_eq {a b : Nat} (ha : s.pc.toNat % memSize = a % memSize)
    (hb : (s.pc.toNat + 1) % memSize = b % memSize) : s.nextWord = s.memRead a ++ s.memRead b := by
  rw [← s.memRead_congr ha, ← s.memRead_congr hb]
  exact s.fetch_word

/-- No handler opens or closes loading: `step` closes it before the handler runs (log entry 13). -/
theorem exec_loadable (h : exec i s = .next t) : t.loadable = s.loadable := by
  have hw := exec_fieldsWritten h
  cases i <;> exact (congrArg State.loadable hw :)

theorem countdown_eq (due : Bool) (b : Byte) : countdown due b = if due = true ∧ b ≠ 0 then b - 1 else b := by
  unfold countdown
  by_cases hb : b = 0
  · rw [if_pos hb, if_neg fun h => h.2 hb, hb]
  · rw [if_neg hb]
    exact if_congr (and_iff_left hb).symm rfl rfl

/-- The fetch and the tick, field by field (30_encoding.md R74, R75). -/
theorem State.beforeHandler_eq (s : State) (due : Bool) : s.beforeHandler due = { s with
    pc := BitVec.ofNat 16 ((s.pc.toNat + 2) % 4096)
    dt := if due = true ∧ s.dt ≠ 0 then s.dt - 1 else s.dt
    st := if due = true ∧ s.st ≠ 0 then s.st - 1 else s.st
    unknownReport := none
    tickSamples := s.tickSamples + 1
    loadable := false } := by
  have hpc : (s.beforeHandler due).pc = BitVec.ofNat 16 ((s.pc.toNat + 2) % 4096) := by
    apply BitVec.eq_of_toNat_eq
    have hfetch := s.beginStep.fetch_pc_toNat
    rw [BitVec.toNat_ofNat, Nat.mod_eq_of_lt (by omega)]
    exact hfetch
  rw [← hpc, ← countdown_eq, ← countdown_eq]
  rfl

end Sys2Proof.Machine
end

section
/-! The memory of the block (20_memory.md; 43_index_memory.md section 2): the word a step runs, the transfers between the
registers and memory, the only writers of memory, and `load_program`. -/

namespace Sys2Proof.Machine

/-- Settles O6: the decoded bytes are the fetched word, and the handler runs after the fetch and the tick. -/
theorem stepRunsTheDecodedInstruction : Obligations.StepRunsTheDecodedInstruction := by
  intro s i hrun _ hdec
  have hi : decode s.fetch.1 = i := by
    rw [State.fetch_word]
    injection hdec with hpair
    exact congrArg Prod.fst hpair
  rw [step, stepWith_running _ hrun, hi, State.beforeHandler_eq]

/-- Settles O29: LD B, Vx stores a list of three bytes. -/
theorem decimalDigitsAreStored : Obligations.DecimalDigitsAreStored := by
  intro x s hconv hwf
  have hlen : [hundreds (s.getV x), tens (s.getV x), units (s.getV x)].length ≤ memSize := by simp [memSize]
  have hdigit := fun k => State.memRead_storeBytes (a := s.i.toNat) (k := k) hwf hlen
  refine ⟨_, exec_ldB hconv, s.storeBytes_eq _ _, ?_, ?_, ?_, fun a ha => State.memRead_storeBytes_ne ha⟩
  · exact (congrArg BitVec.toNat (hdigit 0 (by simp))).trans (hundreds_toNat _)
  · exact (congrArg BitVec.toNat (hdigit 1 (by simp))).trans (tens_toNat _)
  · exact (congrArg BitVec.toNat (hdigit 2 (by simp))).trans (units_toNat _)

/-- Settles O30: the register store, then the advance of `I`. -/
theorem registersAreStored : Obligations.RegistersAreStored := by
  intro x s hconv hwf
  have hexec := exec_stRegs (x := x) hconv
  refine ⟨_, hexec, exec_fieldsWritten hexec, fun k hk => ?_, fun a ha => ?_, fun hsum => ?_⟩
  · exact s.memRead_storeRegs (m := x.val + 1) (by omega) hwf (Nat.lt_succ_of_le hk)
  · exact s.memRead_storeRegs_ne (m := x.val + 1) fun k hk => ha ⟨k, by omega⟩ (Nat.le_of_lt_succ hk)
  · simpa using State.advanceI_i_toNat (s := s.storeRegs (x.val + 1)) (by simpa using hsum)

/-- Settles O31: the register load, then the advance of `I`. -/
theorem registersAreLoaded : Obligations.RegistersAreLoaded := by
  intro x s hconv
  have hget := s.loadRegs_getV (m := x.val + 1) (by omega)
  have hexec := exec_ldRegs (x := x) hconv
  refine ⟨_, hexec, exec_fieldsWritten hexec, fun k hk => ?_, fun k hk => ?_, fun hsum => ?_⟩
  · exact (hget k).trans (if_pos (Nat.lt_succ_of_le hk))
  · exact (hget k).trans (if_neg (by have := Fin.lt_def.1 hk; omega))
  · simpa using State.advanceI_i_toNat (s := s.loadRegs (x.val + 1)) (by simpa using hsum)

/-- Settles O32: the fetch reads the two addresses at which the register store put the two registers. -/
theorem storedWordIsFetchedNext : Obligations.StoredWordIsFetchedNext := by
  intro x k k' s t hwf h hk' hle hpc
  obtain rfl : t = (s.storeRegs (x.val + 1)).advanceI x := exec_next h
  have hread : ∀ j : Reg, j ≤ x → ((s.storeRegs (x.val + 1)).advanceI x).memRead (s.i.toNat + j.val) = s.getV j :=
    fun j hj => s.memRead_storeRegs (by omega) hwf (Nat.lt_succ_of_le hj)
  have hkx : k ≤ x := Fin.le_def.2 (by have := Fin.le_def.1 hle; omega)
  rw [State.nextWord_eq (a := s.i.toNat + k.val) (b := s.i.toNat + k'.val), hread k hkx, hread k' hle]
  · simpa [memSize] using hpc
  · simp only [State.advanceI_pc, State.storeRegs_pc, memSize]
    omega

/-- Settles O48: the frame of each of the two stores; no other handler writes memory. -/
theorem onlyTwoInstructionsWriteMemory : Obligations.OnlyTwoInstructionsWriteMemory := by
  intro i s t a h hne
  have hw := exec_fieldsWritten h
  have hn := exec_next h
  cases i
  case ldB x =>
    obtain ⟨_, _, _, rfl⟩ := hn
    by_contra hnot
    exact hne (State.memRead_storeBytes_ne fun k hk he => hnot (.inl ⟨x, rfl, k, hk, he⟩))
  case stRegs x =>
    subst hn
    by_contra hnot
    exact hne (s.memRead_storeRegs_ne fun k hk he => hnot (.inr ⟨x, rfl, k, Nat.le_of_lt_succ hk, he⟩))
  all_goals exact absurd (State.memRead_of_mem (congrArg State.mem hw :) a) hne

/-- Settles O54: the load stores a list of bytes that fits below 4096; and the fetch closes loading. -/
theorem loadProgramCopiesTheImage : Obligations.LoadProgramCopiesTheImage := by
  intro s bytes
  refine ⟨fun hwf hopen hlen => ?_, fun hbad => ?_, fun t h => ?_⟩
  · refine ⟨_, if_pos ⟨hopen, hlen⟩, ?_, fun k hk => ?_, fun a ha hout => ?_⟩
    · exact congrArg (fun u : State => { u with loadable := false }) (s.storeBytes_eq _ _)
    · exact State.memRead_storeBytes hwf (by rw [memSize]; omega) hk
    · refine State.memRead_storeBytes_ne (a := loadAddr) fun k hk => ?_
      rw [memSize, loadAddr]
      omega
  · refine if_neg fun ⟨hopen, hlen⟩ => ?_
    obtain hclosed | hlong := hbad
    · rw [hclosed] at hopen
      cases hopen
    · exact absurd hlen (Nat.not_le_of_lt hlong)
  · exact exec_loadable (step_cases h).2

end Sys2Proof.Machine
end

section
/-! SUPPORT. The dispatch table and the decoder agree: what a row that selects a word says about the word's fields
(30_encoding.md R71, R77), and which words the decoder finds unknown (R78). -/

namespace Sys2Proof

variable {w : Word} {r r' : OpcodeRow}

theorem OpcodeRow.and_mask_of_selects (h : r.selects w = true) : w &&& r.mask = r.val := eq_of_beq h

/-- A word agrees with the match of a row that selects it in every field under the row's mask. -/
theorem OpcodeRow.extractLsb'_of_selects {lo len : Nat} (h : r.selects w = true)
    (hmask : r.mask.extractLsb' lo len = BitVec.allOnes len) : w.extractLsb' lo len = r.val.extractLsb' lo len := by
  rw [← and_mask_of_selects h, BitVec.extractLsb'_and, hmask, BitVec.and_allOnes]

/-- The matches of two rows that select one word agree under both masks. -/
theorem OpcodeRow.val_and_mask_comm (h : r.selects w = true) (h' : r'.selects w = true) :
    r.val &&& r'.mask = r'.val &&& r.mask := by
  rw [← and_mask_of_selects h, ← and_mask_of_selects h', BitVec.and_assoc, BitVec.and_assoc, BitVec.and_comm r.mask]

theorem fields_c_toNat (w : Word) : (fields w).c.toNat = w.toNat / 0x1000 := by
  have := w.isLt
  simp only [fields, BitVec.extractLsb'_toNat, Nat.shiftRight_eq_div_pow]
  omega

theorem fields_n_val (w : Word) : (fields w).n.val = w.toNat % 0x10 := by
  simp [fields, nibbleNum]

theorem fields_nn_toNat (w : Word) : (fields w).nn.toNat = w.toNat % 0x100 := by
  simp [fields]

/-! The numbers of the dispatch (30_encoding.md R76) in a word and in the match of a row that selects it. -/

theorem OpcodeRow.category_of_selects (h : r.selects w = true) (hmask : r.mask.extractLsb' 12 4 = BitVec.allOnes 4) :
    w.toNat / 0x1000 = r.val.toNat / 0x1000 := by
  rw [← fields_c_toNat, ← fields_c_toNat]
  exact congrArg BitVec.toNat (extractLsb'_of_selects h hmask)

theorem OpcodeRow.n_of_selects (h : r.selects w = true) (hmask : r.mask.extractLsb' 0 4 = BitVec.allOnes 4) :
    w.toNat % 0x10 = r.val.toNat % 0x10 := by
  rw [← fields_n_val, ← fields_n_val]
  exact congrArg BitVec.toNat (extractLsb'_of_selects h hmask)

theorem OpcodeRow.nn_of_selects (h : r.selects w = true) (hmask : r.mask.extractLsb' 0 8 = BitVec.allOnes 8) :
    w.toNat % 0x100 = r.val.toNat % 0x100 := by
  rw [← fields_nn_toNat, ← fields_nn_toNat]
  exact congrArg BitVec.toNat (extractLsb'_of_selects h hmask)

/-! When each category's decoder finds a word unknown (30_encoding.md R78). -/

theorem decodeSystem_eq_unknown_iff : decodeSystem w = .unknown w ↔ w.toNat ≠ 0x00E0 ∧ w.toNat ≠ 0x00EE := by
  unfold decodeSystem
  split
  · next h => simp [h]
  split
  · next h => simp [h]
  · next h0 h1 => exact iff_of_true rfl ⟨fun h => h0 (BitVec.eq_of_toNat_eq h), fun h => h1 (BitVec.eq_of_toNat_eq h)⟩

theorem decodeAlu_eq_unknown_iff (f : Fields) :
    decodeAlu w f = .unknown w ↔ f.n.val ∈ [0x8, 0x9, 0xA, 0xB, 0xC, 0xD, 0xF] := by
  unfold decodeAlu
  generalize f.n = n
  fin_cases n <;> simp

theorem decodeKey_eq_unknown_iff (f : Fields) : decodeKey w f = .unknown w ↔ f.nn.toNat ∉ [0x9E, 0xA1] := by
  unfold decodeKey
  split
  case h_3 => simp_all
  all_goals next h => simp [h]

theorem decodeMisc_eq_unknown_iff (f : Fields) :
    decodeMisc w f = .unknown w ↔ f.nn.toNat ∉ [0x07, 0x0A, 0x15, 0x18, 0x1E, 0x29, 0x33, 0x55, 0x65] := by
  unfold decodeMisc
  split
  case h_10 => simp_all
  all_goals next h => simp [h]

end Sys2Proof
end

section
/-! The encoding (30_encoding.md): the sample words, the rows of the dispatch table, the unknown words, and that every word
is the encoding of a well-formed instruction. -/

namespace Sys2Proof

/-- Settles O1: the decoder run on the words of the statement. -/
theorem sampleWordsDecode : Obligations.SampleWordsDecode := by
  unfold Obligations.SampleWordsDecode
  decide

/-- Settles O4: the matches of two rows that select one word agree under both masks, and those of two different rows do
not. -/
theorem noWordSelectsTwoRows : Obligations.NoWordSelectsTwoRows := by
  have hdisjoint : ∀ r ∈ opcodeRows, ∀ r' ∈ opcodeRows, r.val &&& r'.mask = r'.val &&& r.mask → r = r' := by decide
  intro w r r' hr hr' h h'
  exact hdisjoint r hr r' hr' (OpcodeRow.val_and_mask_comm h h')

/-- Settles O5: category by category, as the decoder dispatches; no category is above F. -/
theorem unknownWordsAreThoseListed : Obligations.UnknownWordsAreThoseListed := by
  intro w
  dsimp only
  rw [← fields_c_toNat, ← fields_n_val, ← fields_nn_toNat]
  unfold decode decodeFields
  split
  case h_1 h => simpa [h] using decodeSystem_eq_unknown_iff
  case h_6 h | h_10 h => simp [h]
  case h_9 h => simpa [h] using decodeAlu_eq_unknown_iff (fields w)
  case h_15 h => simpa [h] using decodeKey_eq_unknown_iff (fields w)
  case h_16 h => simpa [h] using decodeMisc_eq_unknown_iff (fields w)
  case h_17 =>
    have := (fields w).c.isLt
    simp only [imp_false] at *
    omega
  all_goals next h => simp [h]

/-- The mask of a row covers the fields its category is dispatched on (30_encoding.md R76, R77): always the category, and the
sub-selector where the category has unknown words. -/
theorem opcodeRows_masks : ∀ r ∈ opcodeRows,
    r.mask.extractLsb' 12 4 = BitVec.allOnes 4 ∧
    (r.val.toNat / 0x1000 = 0x0 → r.mask = BitVec.allOnes 16) ∧
    (r.val.toNat / 0x1000 ∈ [0x5, 0x8, 0x9] → r.mask.extractLsb' 0 4 = BitVec.allOnes 4) ∧
    (r.val.toNat / 0x1000 ∈ [0xE, 0xF] → r.mask.extractLsb' 0 8 = BitVec.allOnes 8) := by
  decide

/-- A word that a row selects is as unknown as the row's own match, and no match is. -/
theorem OpcodeRow.decode_ne_unknown_of_selects {w : Word} {r : OpcodeRow} (hr : r ∈ opcodeRows) (h : r.selects w = true) :
    decode w ≠ .unknown w := by
  have hmatches : ∀ r ∈ opcodeRows, decode r.val ≠ .unknown r.val := by decide
  obtain ⟨hcat, hsystem, hn, hnn⟩ := opcodeRows_masks r hr
  refine fun hw => hmatches r hr ((unknownWordsAreThoseListed r.val).2 ?_)
  have hlisted := (unknownWordsAreThoseListed w).1 hw
  dsimp only at hlisted ⊢
  rw [category_of_selects h hcat] at hlisted
  rcases hlisted with ⟨h0, hs⟩ | ⟨h5, hs⟩ | ⟨h8, hs⟩ | ⟨h9, hs⟩ | ⟨hE, hs⟩ | ⟨hF, hs⟩
  · have hval : w = r.val := by rw [← and_mask_of_selects h, hsystem h0, BitVec.and_allOnes]
    exact .inl ⟨h0, hval ▸ hs⟩
  · exact .inr (.inl ⟨h5, n_of_selects h (hn (by simp [h5])) ▸ hs⟩)
  · exact .inr (.inr (.inl ⟨h8, n_of_selects h (hn (by simp [h8])) ▸ hs⟩))
  · exact .inr (.inr (.inr (.inl ⟨h9, n_of_selects h (hn (by simp [h9])) ▸ hs⟩)))
  · exact .inr (.inr (.inr (.inr (.inl ⟨hE, nn_of_selects h (hnn (by simp [hE])) ▸ hs⟩))))
  · exact .inr (.inr (.inr (.inr (.inr ⟨hF, nn_of_selects h (hnn (by simp [hF])) ▸ hs⟩))))

/-- The converse of `decode_of_selectsNoRow` (30_encoding.md R78). -/
theorem selectsNoRow_of_decode {w : Word} (h : decode w = .unknown w) : selectsNoRow w = true := by
  simp only [selectsNoRow, List.all_eq_true, Bool.not_eq_true']
  exact fun r hr => eq_false_of_ne_true fun hsel => OpcodeRow.decode_ne_unknown_of_selects hr hsel h

/-- The decoder gives instructions of the block alone (30_encoding.md R80). -/
theorem decode_wellFormed (w : Word) : (decode w).wellFormed = true := by
  have henc := encode_decode w
  cases hdec : decode w
  case unknown w' =>
    rw [hdec] at henc
    obtain rfl : w' = w := henc
    exact selectsNoRow_of_decode hdec
  all_goals rfl

/-- Settles O3: an unknown word is selected by no row, and every other decoded instruction is well-formed by its type. -/
theorem encodeOfDecodeIsIdentity : Obligations.EncodeOfDecodeIsIdentity :=
  fun w => ⟨decode_wellFormed w, encode_decode w⟩

end Sys2Proof

namespace Sys2Proof.Machine

/-- Settles O11: the fetched word decodes to the unknown instruction, whose handler writes the report alone after the fetch
and the tick. -/
theorem unknownWordIsOnlyReported : Obligations.UnknownWordIsOnlyReported := by
  refine ⟨fun _ _ => rfl, fun s hrun hnone => ?_⟩
  have hdec : decode s.fetch.1 = .unknown s.nextWord := decode_of_selectsNoRow hnone
  rw [step, stepWith_running _ hrun, hdec]
  exact ⟨_, rfl, rfl, s.beginStep.fetch_pc_toNat, rfl⟩

end Sys2Proof.Machine
end

section
/-! Control flow (41_control_flow.md) and the key skips (45_timers_input.md section 3): what each handler answers, said once,
and the statements about them. -/

namespace Sys2Proof.Machine

variable {s : State} {x : Reg} {nnn : Addr}

/-- RET with a top entry (41_control_flow.md R103). -/
theorem exec_ret_of_concat {rest : List Word} {top : Word} (h : s.stack = rest ++ [top]) :
    exec .ret s = .next ((s.setStack rest).setPc top) := by
  show execRet s = _
  have hlast : s.stack.getLast? = some top := by rw [h, List.getLast?_concat]
  simp only [execRet, hlast]
  rw [h, List.dropLast_concat]

/-- RET with an empty stack (60_exceptions.md R261). -/
theorem exec_ret_of_nil (h : s.stack = []) : exec .ret s = .next (s.raiseFault .stackUnderflow) := by
  show execRet s = _
  have hlast : s.stack.getLast? = none := by rw [h, List.getLast?_nil]
  simp only [execRet, hlast]

/-- CALL with room on the stack (41_control_flow.md R102). -/
theorem exec_call_of_room (h : s.params.stackDepth ≠ some s.stack.length) :
    exec (.call nnn) s = .next ((s.push s.pc).setPc (zext16 nnn)) :=
  if_neg h

/-- A CALL that leaves the block running has pushed (41_control_flow.md R102; 60_exceptions.md R263). -/
theorem exec_call_stack {t : State} (h : exec (.call nnn) s = .next t) (hrun : t.halted = false) :
    t.stack = s.stack ++ [s.pc] := by
  obtain ⟨-, rfl⟩ | ⟨-, rfl⟩ := exec_next h
  · cases hrun
  · rfl

theorem trunc16_toNat_add_two (w : Word) : trunc16 (w.toNat + 2) = w + 2 :=
  BitVec.eq_of_toNat_eq (by rw [trunc16_toNat, BitVec.toNat_add]; rfl)

/-- A skip on the condition `p` (41_control_flow.md R100; the 16-bit sum is decision D14). -/
theorem State.skipIf_of_iff {c : Bool} {p : Prop} [Decidable p] (h : c = true ↔ p) :
    s.skipIf c = { s with pc := if p then s.pc + 2 else s.pc } := by
  rw [State.skipIf_eq, trunc16_toNat_add_two, if_congr h rfl rfl]
  rfl

/-- A skip on the negation of `p`. -/
theorem State.skipIf_of_iff_not {c : Bool} {p : Prop} [Decidable p] (h : c = true ↔ ¬ p) :
    s.skipIf c = { s with pc := if p then s.pc else s.pc + 2 } := by
  rw [State.skipIf_of_iff h, ite_not]

theorem State.keyAt?_of_toNat_eq {k : Fin 16} (h : (s.getV x).toNat = k.val) : s.keyAt? x = some s.key[k] := by
  simp only [State.keyAt?_eq, h, k.isLt, dif_pos, Fin.getElem_fin]

/-- SKP with a key index (45_timers_input.md R234). -/
theorem exec_skp_of_key {held : Bool} (h : s.keyAt? x = some held) : exec (.skp x) s = .next (s.skipIf held) := by
  show execSkp x s = _
  simp only [execSkp, h]

/-- SKNP with a key index (45_timers_input.md R235). -/
theorem exec_sknp_of_key {held : Bool} (h : s.keyAt? x = some held) : exec (.sknp x) s = .next (s.skipIf !held) := by
  show execSknp x s = _
  simp only [execSknp, h]

/-- The sum of an offset jump fits 16 bits (41_control_flow.md R108). -/
theorem offsetJumpTarget_toNat (b : Byte) (nnn : Addr) : (offsetJumpTarget b nnn).toNat = b.toNat + nnn.toNat := by
  have := b.isLt
  have := nnn.isLt
  rw [offsetJumpTarget, trunc16_toNat]
  omega

theorem offsetJumpReg_val (nnn : Addr) : (offsetJumpReg nnn).val = nnn.toNat / 0x100 := by
  have := nnn.isLt
  simp only [offsetJumpReg, nibbleNum, BitVec.extractLsb'_toNat, Nat.shiftRight_eq_div_pow]
  omega

theorem State.offsetJumpBase_of_not_usesX (h : s.params.jumpUsesX = false) : s.offsetJumpBase nnn = s.getV 0 := by
  simp [State.offsetJumpBase, h]

theorem State.offsetJumpBase_of_usesX (h : s.params.jumpUsesX = true) (hx : x.val = nnn.toNat / 0x100) :
    s.offsetJumpBase nnn = s.getV x := by
  obtain rfl : x = offsetJumpReg nnn := Fin.ext (hx.trans (offsetJumpReg_val nnn).symm)
  simp [State.offsetJumpBase, h]

/-- Settles O16: RET pops what CALL pushed, the `pc` after the call's fetch. -/
theorem returnUndoesCall : Obligations.ReturnUndoesCall := by
  intro s t u nnn hcall hkept hrun hstack
  exact exec_ret_of_concat (hstack.trans (exec_call_stack hcall (hkept.trans hrun)))

/-- Settles O12: the word is the instruction's own, and its handler writes `pc` alone. -/
theorem jumpLoadsItsTarget : Obligations.JumpLoadsItsTarget :=
  fun nnn => ⟨decode_encode (i := .jp nnn) rfl, fun _ => rfl⟩

/-- Settles O13: a stack that has not reached its depth has room. -/
theorem callPushesTheReturnAddress : Obligations.CallPushesTheReturnAddress := by
  refine fun nnn => ⟨decode_encode (i := .call nnn) rfl, fun s hroom => ?_⟩
  exact exec_call_of_room fun hfull => hroom _ hfull rfl

/-- Settles O15: the two cases of the stack. -/
theorem returnPopsOrFaults : Obligations.ReturnPopsOrFaults :=
  ⟨decode_encode (i := .ret) rfl, fun _ _ _ h => exec_ret_of_concat h, fun _ h => exec_ret_of_nil h⟩

/-- Settles O17: each handler is a skip on its comparison. -/
theorem registerSkips : Obligations.RegisterSkips := by
  refine fun x y nn s => ⟨?seImm, ?sneImm, ?seReg, ?sneReg⟩
  case seImm | seReg => exact congrArg Host.Outcome.next (State.skipIf_of_iff beq_iff_eq)
  case sneImm | sneReg => exact congrArg Host.Outcome.next (State.skipIf_of_iff_not bne_iff_ne)

/-- Settles O18: the target is the exact sum, and `JUMP_USES_X` selects its base. -/
theorem offsetJumpIsNotReduced : Obligations.OffsetJumpIsNotReduced := by
  refine fun nnn => ⟨decode_encode (i := .jpV0 nnn) rfl, fun s => ⟨_, rfl, rfl, ?bound, fun hno => ?base0, ?baseX⟩⟩
  case bound => exact offsetJumpTarget_le _ nnn
  case base0 => rw [State.setPc_pc, offsetJumpTarget_toNat, State.offsetJumpBase_of_not_usesX hno]
  case baseX =>
    intro huses x hx
    rw [State.setPc_pc, offsetJumpTarget_toNat, State.offsetJumpBase_of_usesX huses hx]

/-- Settles O39: with `V[x]` a key index, both handlers are skips on that key. -/
theorem keySkipsFollowTheKeyState : Obligations.KeySkipsFollowTheKeyState := by
  intro x k s hk
  have hkey := State.keyAt?_of_toNat_eq hk
  rw [exec_skp_of_key hkey, exec_sknp_of_key hkey, State.skipIf_of_iff Iff.rfl,
    State.skipIf_of_iff_not (p := s.key[k] = true) (by simp)]
  exact ⟨rfl, rfl⟩

end Sys2Proof.Machine
end

section
/-! The ends of a run (70_reset_and_hazards.md R303): what a step does at an idle end, and the first boundary that ends a
bounded or an idle run. -/

namespace Sys2Proof.Machine

variable {s t : State}

/-- The next word depends on memory and on `pc` modulo 4096 alone (30_encoding.md R75). -/
theorem State.nextWord_congr (hmem : t.mem = s.mem) (hpc : t.pc.toNat % memSize = s.pc.toNat % memSize) :
    t.nextWord = s.nextWord := by
  have hpc1 : (t.pc.toNat + 1) % memSize = (s.pc.toNat + 1) % memSize := Nat.ModEq.add_right 1 hpc
  rw [State.nextWord_eq hpc hpc1, State.memRead_of_mem hmem, State.memRead_of_mem hmem]
  exact s.fetch_word.symm

/-- A state that agrees with an idle end on `halted`, on memory and on `pc` modulo 4096 is an idle end. -/
theorem idleEnd_congr (h : s.idleEnd) (hhalted : t.halted = s.halted) (hmem : t.mem = s.mem)
    (hpc : t.pc.toNat % memSize = s.pc.toNat % memSize) : t.idleEnd := by
  obtain ⟨hrun, hjump⟩ := h
  exact ⟨hhalted.trans hrun, by rw [State.nextWord_congr hmem hpc, hpc, hjump]⟩

theorem zext16_ofNat_mod (n : Nat) : zext16 (BitVec.ofNat 12 (n % memSize)) = BitVec.ofNat 16 (n % 4096) := by
  apply BitVec.eq_of_toNat_eq
  simp only [zext16, memSize, BitVec.toNat_setWidth, BitVec.toNat_ofNat]
  omega

/-- A step from an idle end jumps to `pc` modulo 4096 after the fetch and the tick. -/
theorem step_of_idleEnd (h : s.idleEnd) : step s =
    .next ((s.beforeHandler (Config.tickDue s.tickSamples)).setPc (BitVec.ofNat 16 (s.pc.toNat % 4096))) := by
  obtain ⟨hrun, hjump⟩ := h
  have hdec : decode s.fetch.1 = .jp (BitVec.ofNat 12 (s.pc.toNat % memSize)) := hjump
  rw [step, stepWith_running _ hrun, hdec, ← zext16_ofNat_mod]
  rfl

theorem toNat_ofNat_mod_4096 (n : Nat) : (BitVec.ofNat 16 (n % 4096)).toNat = n % 4096 := by
  rw [BitVec.toNat_ofNat]
  omega

/-- An idle end stays idle over a step, which moves the timers, the reduction of `pc` and the model's own fields alone. -/
theorem exists_step_of_idleEnd (h : s.idleEnd) : ∃ t, step s = .next t ∧ t.idleEnd ∧
    t = { s with pc := BitVec.ofNat 16 (s.pc.toNat % 4096), dt := t.dt, st := t.st, unknownReport := none,
                 tickSamples := s.tickSamples + 1, loadable := false } := by
  refine ⟨_, step_of_idleEnd h, idleEnd_congr h rfl rfl ?_, rfl⟩
  rw [State.setPc_pc, toNat_ofNat_mod_4096, memSize, Nat.mod_mod]

/-- Any number of steps from an idle end, one step at a time. -/
theorem exists_runSteps_of_idleEnd (n : Nat) (h : s.idleEnd) : ∃ t, runSteps n s = .next t ∧ t.idleEnd ∧
    t.pc.toNat % 4096 = s.pc.toNat % 4096 ∧
    t = { s with pc := t.pc, dt := t.dt, st := t.st, unknownReport := t.unknownReport,
                 tickSamples := s.tickSamples + n, loadable := t.loadable } := by
  induction n generalizing s with
  | zero => exact ⟨s, runSteps_zero s, h, rfl, rfl⟩
  | succ n ih =>
    obtain ⟨u, hstep, hidle, hu⟩ := exists_step_of_idleEnd h
    obtain ⟨t, hruns, hidle', hpc, ht⟩ := ih hidle
    refine ⟨t, runSteps_succ_next.2 ⟨u, hstep, hruns⟩, hidle', ?_, ?_⟩
    · rw [hpc, congrArg State.pc hu, toNat_ofNat_mod_4096, Nat.mod_mod]
    · have htick : u.tickSamples = s.tickSamples + 1 := congrArg State.tickSamples hu
      have hticks : u.tickSamples + n = s.tickSamples + (n + 1) := by omega
      rw [ht, hticks, hu]

/-- A run that has made fewer than `n` steps at every boundary before its end has made at most `n` at the end: its last host
operation makes one step at most. -/
theorem stepCount_le_of_prefixes {n : Nat} {pre : List HostOp} (hr : runOps pre s = .next t)
    (h : ∀ p u, p <+: pre → p ≠ pre → runOps p s = .next u → stepCount p < n) : stepCount pre ≤ n := by
  induction pre using List.reverseRecOn with
  | nil => exact Nat.zero_le n
  | append_singleton p op _ =>
    obtain ⟨u, hu, -⟩ := runOps_append_next.1 hr
    have hlt := h p u (List.prefix_append p [op]) (by simp) hu
    have hop := steps_le_one op
    rw [stepCount_append, stepCount_cons, stepCount_nil]
    omega

/-- `StillRunning` from the first boundary on, as R303 counts the steps. -/
theorem stillRunning_zero {e : RunEnd} {pre : List HostOp} : StillRunning e 0 pre s ↔
    ∀ p u, p <+: pre → p ≠ pre → runOps p s = .next u → e.status (stepCount p) u = .notYet := by
  simp only [StillRunning, Nat.zero_add]
  exact ⟨fun h p u hp hne => h p hp hne u, fun h p hp hne u => h p u hp hne⟩

/-- A run has a good end exactly where its boundary is good and no boundary before it ends the run. -/
theorem run_goodEnd {e : RunEnd} {ops : List HostOp} : run e ops s = .goodEnd t ↔
    ∃ pre rest, ops = pre ++ rest ∧ runOps pre s = .next t ∧ e.status (stepCount pre) t = .good ∧
      ∀ p u, p <+: pre → p ≠ pre → runOps p s = .next u → e.status (stepCount p) u = .notYet := by
  simp only [run, runFrom_goodEnd, stillRunning_zero, Nat.zero_add]

/-- The good end of a bounded run (R303 (a)). -/
theorem run_bounded_goodEnd {n : Nat} {ops : List HostOp} : run (.bounded n) ops s = .goodEnd t ↔
    ∃ pre rest, ops = pre ++ rest ∧ runOps pre s = .next t ∧ stepCount pre = n ∧ t.halted = false ∧
      ∀ p u, p <+: pre → p ≠ pre → runOps p s = .next u → stepCount p < n ∧ u.halted = false := by
  simp only [run_goodEnd, RunEnd.status_bounded_good, RunEnd.status_bounded_notYet]
  constructor
  · rintro ⟨pre, rest, hops, hr, ⟨hrun, hcount⟩, hbefore⟩
    have hle := stepCount_le_of_prefixes hr fun p u hp hne hu => (hbefore p u hp hne hu).2
    exact ⟨pre, rest, hops, hr, Nat.le_antisymm hle hcount, hrun, fun p u hp hne hu => (hbefore p u hp hne hu).symm⟩
  · rintro ⟨pre, rest, hops, hr, hcount, hrun, hbefore⟩
    exact ⟨pre, rest, hops, hr, ⟨hrun, hcount.ge⟩, fun p u hp hne hu => (hbefore p u hp hne hu).symm⟩

/-- The good end of an idle run (R303 (b)). -/
theorem run_idle_goodEnd {ops : List HostOp} : run .idle ops s = .goodEnd t ↔
    ∃ pre rest, ops = pre ++ rest ∧ runOps pre s = .next t ∧ t.idleEnd ∧
      ∀ p u, p <+: pre → p ≠ pre → runOps p s = .next u → u.halted = false ∧ ¬ u.idleEnd := by
  simp only [run_goodEnd, RunEnd.status_idle_good, RunEnd.status_idle_notYet]

/-- A run from a halted state comes out there, whatever the host would do. -/
theorem run_of_halted {e : RunEnd} {ops : List HostOp} (h : s.halted = true) : run e ops s = .haltedEnd s := by
  have hstatus : e.status 0 s = .halted := RunEnd.status_halted.2 h
  cases ops <;> simp only [run, runFrom, hstatus]

/-- A key wait fetches no jump. -/
theorem not_idleEnd_of_ldVxK {x : Reg} (h : decode s.nextWord = .ldVxK x) : ¬ s.idleEnd := by
  rintro ⟨-, hjump⟩
  rw [h] at hjump
  cases hjump

/-- Settles O58: the idle end by one step and by induction on their number, the two good ends by the first boundary that
ends a run. -/
theorem idleEndRepeatsItself : Obligations.IdleEndRepeatsItself :=
  ⟨fun _ h => exists_step_of_idleEnd h, fun _ n h => exists_runSteps_of_idleEnd n h,
    fun _ _ _ _ => run_bounded_goodEnd, fun _ _ _ => run_idle_goodEnd,
    fun _ _ _ _ h => runFrom_haltedEnd h, fun _ _ _ h => run_of_halted h, fun _ _ h => not_idleEnd_of_ldVxK h⟩

end Sys2Proof.Machine
end

section
/-! Register file and ALU (42_alu.md): the results and flags as numbers, the two orders of R130 in which a result and its flag
are written, and the statements about them. -/

namespace Sys2Proof.Machine

variable {s : State} {x y : Reg} {b result flag : Byte}

/-! Results and flags as numbers. -/

theorem addResult_toNat (a b : Byte) : (addResult a b).toNat = (a.toNat + b.toNat) % 256 := trunc8_toNat _

theorem subResult_toNat (a b : Byte) : (subResult a b).toNat = (a.toNat + 256 - b.toNat) % 256 := trunc8_toNat _

theorem shrResult_toNat (b : Byte) : (shrResult b).toNat = b.toNat / 2 := by
  rw [shrResult, BitVec.toNat_ushiftRight, Nat.shiftRight_eq_div_pow, Nat.pow_one]

theorem shrFlag_toNat (b : Byte) : (shrFlag b).toNat = b.toNat % 2 :=
  (BitVec.toNat_and b 1).trans (Nat.and_one_is_mod _)

theorem shlResult_toNat (b : Byte) : (shlResult b).toNat = 2 * b.toNat % 256 := by
  rw [shlResult, BitVec.toNat_shiftLeft, Nat.shiftLeft_eq, Nat.pow_one, Nat.mul_comm]

/-- Bit 7 is all that is left above seven places, so the mask takes nothing away. -/
theorem shlFlag_toNat (b : Byte) : (shlFlag b).toNat = b.toNat / 128 := by
  have hmask : (shlFlag b).toNat = (b >>> 7).toNat % 2 := shrFlag_toNat (b >>> 7)
  rw [hmask, BitVec.toNat_ushiftRight, Nat.shiftRight_eq_div_pow]
  have := b.isLt
  omega

/-! The result, then the flag (8xy4, 8xy5, 8xy7). -/

theorem State.setV_getV_self : (s.setV x b).getV x = b := by
  rw [State.setV_getV, if_pos rfl]

/-- A register that is neither the destination nor VF keeps its value over both writes. -/
theorem State.setVF_setV_getV_of_ne {r : Reg} (hx : r ≠ x) (hf : r ≠ vf) :
    ((s.setV x result).setVF flag).getV r = s.getV r :=
  (State.setVF_getV_of_ne hf).trans (State.setV_getV_of_ne hx)

/-- A handler that writes `V[x]` and then VF: the flag stands in VF for every `x`, the result in `V[x]` unless that is VF
(decision D9). -/
theorem exists_resultThenFlag {o : Host.Outcome State Fault Refusal} {n : Nat}
    (ho : o = .next ((s.setV x result).setVF flag)) (hn : result.toNat = n) :
    ∃ t, o = .next t ∧ t = { s with v := t.v } ∧ t.getV 15 = flag ∧ (x ≠ 15 → (t.getV x).toNat = n) ∧
      ∀ r, r ≠ x → r ≠ 15 → t.getV r = s.getV r := by
  refine ⟨_, ho, rfl, State.setV_getV_self, fun hx => ?dest, fun r => State.setVF_setV_getV_of_ne⟩
  case dest => rw [State.setVF_getV_of_ne hx, State.setV_getV_self, hn]

/-! The flag, then the shift in place (8xy6, 8xyE). -/

/-- The byte a shift works on: `V[y]` under `SHIFT_USES_Y`, else `V[x]` (42_alu.md R139, R141). -/
def State.shiftSource (s : State) (x y : Reg) : Byte := if s.params.shiftUsesY then s.getV y else s.getV x

/-- The three writes of a shift of `b`: the copy to `V[x]`, the flag, and the shift of what `V[x]` then holds. -/
def State.shiftWrites (s : State) (x : Reg) (b : Byte) (flagOf resultOf : Byte → Byte) : State :=
  let flagged := (s.setV x b).setVF (flagOf b)
  flagged.setV x (resultOf (flagged.getV x))

/-- SHR (42_alu.md R139). Without `SHIFT_USES_Y` the source is `V[x]`, and the copy changes nothing. -/
theorem exec_shr : exec (.shr x y) s = .next (s.shiftWrites x (s.shiftSource x y) shrFlag shrResult) := by
  show execShr x y s = _
  simp only [execShr, State.copyForShift_eq, State.setV_getV_self]
  rfl

/-- SHL, with the same copy (42_alu.md R141). -/
theorem exec_shl : exec (.shl x y) s = .next (s.shiftWrites x (s.shiftSource x y) shlFlag shlResult) := by
  show execShl x y s = _
  simp only [execShl, State.copyForShift_eq, State.setV_getV_self]
  rfl

variable {flagOf resultOf : Byte → Byte}

theorem State.shiftWrites_getV_dest (hx : x ≠ vf) : (s.shiftWrites x b flagOf resultOf).getV x = resultOf b := by
  rw [State.shiftWrites, State.setV_getV_self, State.setVF_getV_of_ne hx, State.setV_getV_self]

theorem State.shiftWrites_getV_flag (hx : x ≠ vf) : (s.shiftWrites x b flagOf resultOf).getV vf = flagOf b :=
  (State.setV_getV_of_ne hx.symm).trans State.setV_getV_self

/-- With `x = F` the shift applies to the flag (decision D10). -/
theorem State.shiftWrites_vf_getV_vf : (s.shiftWrites vf b flagOf resultOf).getV vf = resultOf (flagOf b) :=
  State.setV_getV_self.trans (congrArg resultOf State.setV_getV_self)

theorem State.shiftWrites_getV_of_ne {r : Reg} (hx : r ≠ x) (hf : r ≠ vf) :
    (s.shiftWrites x b flagOf resultOf).getV r = s.getV r :=
  (State.setV_getV_of_ne hx).trans (State.setVF_setV_getV_of_ne hx hf)

/-- A handler that shifts, in numbers: `n` is its result, `c` its flag and `d` its result on its own flag. -/
theorem exists_shift {o : Host.Outcome State Fault Refusal} {n c d : Nat}
    (ho : o = .next (s.shiftWrites x b flagOf resultOf))
    (hn : (resultOf b).toNat = n) (hc : (flagOf b).toNat = c) (hd : (resultOf (flagOf b)).toNat = d) :
    ∃ t, o = .next t ∧ t = { s with v := t.v } ∧ (x ≠ 15 → (t.getV x).toNat = n ∧ (t.getV 15).toNat = c) ∧
      (x = 15 → (t.getV 15).toNat = d) ∧ ∀ r, r ≠ x → r ≠ 15 → t.getV r = s.getV r := by
  refine ⟨_, ho, rfl, fun hx => ⟨?dest, ?flag⟩, ?both, fun r => State.shiftWrites_getV_of_ne⟩
  case dest => rw [State.shiftWrites_getV_dest hx, hn]
  case flag => exact (congrArg BitVec.toNat (State.shiftWrites_getV_flag hx)).trans hc
  case both =>
    rintro rfl
    exact (congrArg BitVec.toNat State.shiftWrites_vf_getV_vf).trans hd

/-- Settles O19: the words are the instructions' own, and each handler is one register write. -/
theorem setAndCopyWriteOneRegister : Obligations.SetAndCopyWriteOneRegister :=
  fun x y nn => ⟨decode_encode (i := .ldImm x nn) rfl, decode_encode (i := .ldReg x y) rfl, fun _ => ⟨rfl, rfl⟩⟩

/-- Settles O20: the handler is one write of the wrapped sum. -/
theorem addImmediateWrapsWithoutFlag : Obligations.AddImmediateWrapsWithoutFlag := by
  refine fun x nn => ⟨decode_encode (i := .addImm x nn) rfl, fun s => ⟨_, rfl, rfl, ?sum, fun r hr => ?others⟩⟩
  case sum => rw [State.setV_getV_self, addResult_toNat]
  case others => exact State.setV_getV_of_ne hr

/-- Settles O21: the words are the instructions' own, and each handler is one register write. -/
theorem logicWritesNoFlag : Obligations.LogicWritesNoFlag :=
  fun x y => ⟨decode_encode (i := .orReg x y) rfl, decode_encode (i := .andReg x y) rfl, decode_encode (i := .xorReg x y) rfl,
    fun _ => ⟨rfl, rfl, rfl⟩⟩

/-- Settles O22: the wrapped sum is written, then the carry. -/
theorem addSetsCarry : Obligations.AddSetsCarry :=
  fun _ _ _ => exists_resultThenFlag rfl (addResult_toNat _ _)

/-- Settles O23: the wrapped difference is written, then the flag, in both orders of the operands. -/
theorem subtractSetsNoBorrow : Obligations.SubtractSetsNoBorrow :=
  fun _ _ _ => ⟨exists_resultThenFlag rfl (subResult_toNat _ _), exists_resultThenFlag rfl (subResult_toNat _ _)⟩

/-- Settles O24: a right shift of bit 0 leaves 0, and a left shift of bit 7 in place 0 does not wrap. -/
theorem shiftsMoveOneBitIntoTheFlag : Obligations.ShiftsMoveOneBitIntoTheFlag := by
  rintro x y s _ rfl
  refine ⟨exists_shift exec_shr (shrResult_toNat _) (shrFlag_toNat _) ?shrOfFlag,
    exists_shift exec_shl (shlResult_toNat _) (shlFlag_toNat _) ?shlOfFlag⟩
  case shrOfFlag =>
    rw [shrResult_toNat, shrFlag_toNat]
    omega
  case shlOfFlag =>
    have := (s.shiftSource x y).isLt
    rw [shlResult_toNat, shlFlag_toNat, Nat.mod_eq_of_lt (by omega)]
    rfl

/-- Settles O25: the draw of one input, then one register write, whatever the input is. -/
theorem randomByteIsMasked : Obligations.RandomByteIsMasked := fun _ _ _ => rfl

end Sys2Proof.Machine
end

section
/-! Index register (43_index_memory.md) and the outcomes of a step: what each of the handlers answers, said once, and the
statements about them. -/

namespace Sys2Proof.Machine

variable {s : State} {x : Reg}

/-! The sum of Fx1E. -/

theorem indexSum_of_gt {w : Word} {b : Byte} (h : 0xFFF < w.toNat + b.toNat) :
    indexSum w b = trunc16 (w.toNat + b.toNat - 0x1000) :=
  if_pos (decide_eq_true h)

theorem indexSum_of_le {w : Word} {b : Byte} (h : w.toNat + b.toNat ≤ 0xFFF) :
    indexSum w b = trunc16 (w.toNat + b.toNat) :=
  if_neg (by simpa [indexOverflows] using h)

/-- One correction by 0x1000 is enough up to `I = 0x100F` (log entry 11). -/
theorem indexSum_le_of_le_100F {w : Word} (hw : w.toNat ≤ 0x100F) (b : Byte) : (indexSum w b).toNat ≤ 0xFFF := by
  have := b.isLt
  obtain hgt | hle := Nat.lt_or_ge 0xFFF (w.toNat + b.toNat)
  · rw [indexSum_of_gt hgt, trunc16_toNat]
    omega
  · rw [indexSum_of_le hle, trunc16_toNat]
    omega

/-- ADD I, Vx past 0xFFF (43_index_memory.md R171). -/
theorem exec_addI_of_gt (h : 0xFFF < s.i.toNat + (s.getV x).toNat) :
    exec (.addI x) s = .next ((s.setVF 1).setI (indexSum s.i (s.getV x))) := by
  have hover : indexOverflows s.i (s.getV x) = true := decide_eq_true h
  show execAddI x s = _
  rw [execAddI, if_pos hover]

/-- ADD I, Vx up to 0xFFF: VF stays (43_index_memory.md R171). -/
theorem exec_addI_of_le (h : s.i.toNat + (s.getV x).toNat ≤ 0xFFF) :
    exec (.addI x) s = .next (s.setI (indexSum s.i (s.getV x))) := by
  have hfits : ¬ indexOverflows s.i (s.getV x) = true := by simpa [indexOverflows] using h
  show execAddI x s = _
  rw [execAddI, if_neg hfits]

/-- ADD I, Vx completes with the corrected sum in `I`. -/
theorem exists_exec_addI : ∃ t, exec (.addI x) s = .next t ∧ t.i = indexSum s.i (s.getV x) := by
  obtain hgt | hle := Nat.lt_or_ge 0xFFF (s.i.toNat + (s.getV x).toNat)
  · exact ⟨_, exec_addI_of_gt hgt, rfl⟩
  · exact ⟨_, exec_addI_of_le hle, rfl⟩

/-! The glyph address of Fx29. -/

theorem exec_ldF (h : s.params.fxMemoryOps = .conventional) : exec (.ldF x) s = .next (s.setI (glyphAddr (s.getV x))) :=
  State.ifConventional_next h _

theorem glyphAddr_toNat (b : Byte) : (glyphAddr b).toNat = 5 * (b.toNat % 16) := by
  rw [glyphAddr, trunc16_toNat]
  omega

/-! The two outcomes of the four memory operations (43_index_memory.md R172). -/

theorem State.ifConventional_refused (h : s.params.fxMemoryOps = .refuse) (t : State) :
    s.ifConventional t = .refused .fxMemoryOps := by
  rw [State.ifConventional, h]

theorem State.ifConventional_cases (s t : State) :
    s.ifConventional t = .next t ∨ (s.params.fxMemoryOps = .refuse ∧ s.ifConventional t = .refused .fxMemoryOps) := by
  cases h : s.params.fxMemoryOps with
  | conventional => exact .inl (State.ifConventional_next h t)
  | refuse => exact .inr ⟨rfl, State.ifConventional_refused h t⟩

/-! The cases of the handlers that fault and of the key wait. -/

/-- CALL with a full stack (60_exceptions.md R263). -/
theorem exec_call_of_full {nnn : Addr} (h : s.params.stackDepth = some s.stack.length) :
    exec (.call nnn) s = .next (s.raiseFault .stackOverflow) :=
  if_pos h

/-- SKP with no key of that index (60_exceptions.md R262). -/
theorem exec_skp_of_noKey (h : s.keyAt? x = none) : exec (.skp x) s = .next (s.raiseFault .keyIndexOutOfRange) := by
  show execSkp x s = _
  simp only [execSkp, h]

/-- SKNP with no key of that index (60_exceptions.md R262). -/
theorem exec_sknp_of_noKey (h : s.keyAt? x = none) : exec (.sknp x) s = .next (s.raiseFault .keyIndexOutOfRange) := by
  show execSknp x s = _
  simp only [execSknp, h]

/-- LD Vx, K with a key held (45_timers_input.md R236). -/
theorem exec_ldVxK_of_held {k : Fin 16} (h : s.leastHeldKey? = some k) :
    exec (.ldVxK x) s = .next (s.setV x (trunc8 k.val)) := by
  show execLdVxK x s = _
  simp only [execLdVxK, h]

/-- LD Vx, K with no key held (45_timers_input.md R236). -/
theorem exec_ldVxK_of_noneHeld (h : s.leastHeldKey? = none) : exec (.ldVxK x) s = .next s.rewind := by
  show execLdVxK x s = _
  simp only [execLdVxK, h]

/-- A handler answers a next state, or it is a memory operation and refused. -/
theorem exec_next_or_refused (i : Instr) (s : State) :
    (∃ t, exec i s = .next t) ∨
    (s.params.fxMemoryOps = .refuse ∧ exec i s = .refused .fxMemoryOps ∧
      ∃ x, i = .ldF x ∨ i = .ldB x ∨ i = .stRegs x ∨ i = .ldRegs x) := by
  cases i
  case ldF x | ldB x | stRegs x | ldRegs x =>
    obtain hnext | ⟨hmode, hrefused⟩ := s.ifConventional_cases _
    · exact .inl ⟨_, hnext⟩
    · exact .inr ⟨hmode, hrefused, x, by simp⟩
  case ret =>
    obtain hnil | ⟨_, _, hconcat⟩ := List.eq_nil_or_concat' s.stack
    · exact .inl ⟨_, exec_ret_of_nil hnil⟩
    · exact .inl ⟨_, exec_ret_of_concat hconcat⟩
  case call =>
    by_cases hfull : s.params.stackDepth = some s.stack.length
    · exact .inl ⟨_, exec_call_of_full hfull⟩
    · exact .inl ⟨_, exec_call_of_room hfull⟩
  case skp x =>
    cases hkey : s.keyAt? x with
    | none => exact .inl ⟨_, exec_skp_of_noKey hkey⟩
    | some held => exact .inl ⟨_, exec_skp_of_key hkey⟩
  case sknp x =>
    cases hkey : s.keyAt? x with
    | none => exact .inl ⟨_, exec_sknp_of_noKey hkey⟩
    | some held => exact .inl ⟨_, exec_sknp_of_key hkey⟩
  case ldVxK =>
    cases hkey : s.leastHeldKey? with
    | none => exact .inl ⟨_, exec_ldVxK_of_noneHeld hkey⟩
    | some k => exact .inl ⟨_, exec_ldVxK_of_held hkey⟩
  all_goals exact .inl ⟨_, rfl⟩

/-- Settles O8: a halted block is the fault, and a running one is its handler, which answers or is refused under the
parameters the fetch and the tick leave. -/
theorem stepAnswersUnlessHaltedOrRefused : Obligations.StepAnswersUnlessHaltedOrRefused := by
  intro s
  cases hrun : s.halted with
  | true => exact .inr (.inl ⟨rfl, stepWith_halted _ hrun⟩)
  | false =>
    have hstep : step s = exec (decode s.nextWord) (s.beforeHandler (Config.tickDue s.tickSamples)) :=
      stepWith_running _ hrun
    rw [hstep]
    obtain hnext | ⟨hmode, hrefused, hword⟩ := exec_next_or_refused (decode s.nextWord) (s.beforeHandler _)
    · exact .inl hnext
    · exact .inr (.inr ⟨rfl, hmode, hrefused, hword⟩)

/-- Settles O26: the word is the instruction's own, and its handler writes `I` alone. -/
theorem setIndexLoadsTwelveBits : Obligations.SetIndexLoadsTwelveBits :=
  fun nnn => ⟨decode_encode (i := .ldI nnn) rfl, fun _ => rfl⟩

/-- Settles O27: the sum on either side of 0xFFF, and its bound. -/
theorem addToIndexCorrectsOverflow : Obligations.AddToIndexCorrectsOverflow := by
  refine fun x s => ⟨fun hgt => ?past, fun hle => ?within, fun hi => ?bound⟩
  case past =>
    rw [exec_addI_of_gt hgt, indexSum_of_gt hgt]
    rfl
  case within =>
    rw [exec_addI_of_le hle, indexSum_of_le hle]
    rfl
  case bound =>
    obtain ⟨t, hexec, hsum⟩ := exists_exec_addI (s := s) (x := x)
    exact ⟨t, hexec, hsum ▸ indexSum_le_of_le_100F hi _⟩

/-- Settles O28: the handler writes the glyph address, which fits `I`. -/
theorem fontPointerIsFiveTimesTheDigit : Obligations.FontPointerIsFiveTimesTheDigit :=
  fun _ _ hconv => ⟨_, exec_ldF hconv, rfl, glyphAddr_toNat _⟩

/-- Settles O33: the four handlers share one test of `FX_MEMORY_OPS`. -/
theorem memoryOperationsCanBeRefused : Obligations.MemoryOperationsCanBeRefused := by
  intro x s hrefuse
  have hrefused := State.ifConventional_refused hrefuse
  exact ⟨hrefused _, hrefused _, hrefused _, hrefused _⟩

end Sys2Proof.Machine
end

section
/-! The framebuffer (44_display.md). A sprite's loops visit each pixel once, so a draw flips exactly the pixels under its 1
bits and its flag is their collision: stated as one relation between the states before and after, and carried from a single
pixel write through the two loops to DRW. And what the host may do to a halted block. -/

namespace Sys2Proof.Machine

variable {s t u : State} {x y : Reg} {n : Fin 16} {row : Fin 32} {col : Fin 64}

/-! Drawing a set of pixels. -/

/-- A set of pixels, as the test of one. -/
abbrev PixelSet := Fin 32 → Fin 64 → Bool

/-- Some pixel of the set is on: the collision of R202. -/
def State.Collides (s : State) (hit : PixelSet) : Prop := ∃ row col, hit row col = true ∧ s.fb.pixel row col = true

/-- `t` is what drawing the pixels of `hit` in `s` leaves: each of them has flipped once, and VF has become 1 if one of them
was on (44_display.md R202). -/
structure Draws (hit : PixelSet) (s t : State) : Prop where
  pixel : ∀ row col, t.fb.pixel row col = (s.fb.pixel row col ^^ hit row col)
  flag_of_collides : s.Collides hit → t.getV vf = 1
  flag_of_not_collides : ¬ s.Collides hit → t.getV vf = s.getV vf

theorem Draws.empty (s : State) : Draws (fun _ _ => false) s s where
  pixel _ _ := (Bool.xor_false _).symm
  flag_of_collides := fun ⟨_, _, hhit, _⟩ => by cases hhit
  flag_of_not_collides _ := rfl

/-- Sets with no pixel in common are drawn one after the other as their union: the first draw leaves the pixels of the
second as they were. -/
theorem Draws.trans {hit hit' : PixelSet} (hdisj : ∀ row col, hit' row col = true → hit row col = false)
    (h : Draws hit s t) (h' : Draws hit' t u) : Draws (fun row col => hit row col || hit' row col) s u := by
  have hsecond : t.Collides hit' ↔ s.Collides hit' :=
    exists₂_congr fun row col => and_congr_right fun hhit' => by rw [h.pixel, hdisj row col hhit', Bool.xor_false]
  have hunion : s.Collides (fun row col => hit row col || hit' row col) ↔ s.Collides hit ∨ s.Collides hit' := by
    simp only [State.Collides, Bool.or_eq_true, or_and_right, exists_or]
  refine ⟨fun row col => ?pixels, fun hc => ?collided, fun hc => ?clear⟩
  case pixels =>
    rw [h'.pixel, h.pixel, Bool.xor_assoc]
    cases hin : hit' row col with
    | true => rw [hdisj row col hin]; rfl
    | false => rw [Bool.xor_false, Bool.or_false]
  case collided =>
    by_cases hc' : t.Collides hit'
    · exact h'.flag_of_collides hc'
    · have hfirst := (hunion.1 hc).resolve_right (hsecond.not.1 hc')
      rw [h'.flag_of_not_collides hc', h.flag_of_collides hfirst]
  case clear =>
    obtain ⟨hfirst, hlast⟩ := not_or.1 (hunion.not.1 hc)
    rw [h'.flag_of_not_collides (hsecond.not.2 hlast), h.flag_of_not_collides hfirst]

/-- A loop whose rounds draw sets with no pixel in common draws their union. -/
theorem Draws.foldl_range {f : State → Nat → State} {hit : Nat → PixelSet}
    (hdisj : ∀ k k' row col, hit k row col = true → hit k' row col = true → k = k')
    (hround : ∀ k, Draws (hit k) ((List.range k).foldl f s) (f ((List.range k).foldl f s) k)) (m : Nat) :
    Draws (fun row col => (List.range m).any (hit · row col)) s ((List.range m).foldl f s) := by
  induction m with
  | zero => exact Draws.empty s
  | succ m ih =>
    have hnew : ∀ row col, hit m row col = true → (List.range m).any (hit · row col) = false := by
      intro row col hlast
      refine Bool.eq_false_iff.2 fun hold => ?_
      obtain ⟨k, hk, hhit⟩ := List.any_eq_true.1 hold
      exact (List.mem_range.1 hk).ne (hdisj k m row col hhit hlast)
    have hboth := ih.trans hnew (hround m)
    simpa only [List.range_succ, List.foldl_append, List.foldl_cons, List.foldl_nil, List.any_append, List.any_cons,
      List.any_nil, Bool.or_false] using hboth

/-! One pixel, one sprite byte, one sprite. -/

/-- The pixel at (`px`, `py`), or none when that is outside the grid. -/
def pixelAt (px py : Nat) : PixelSet := fun row col => decide (py = row.val ∧ px = col.val)

theorem State.plot_draws (s : State) (px py : Nat) : Draws (pixelAt px py) s (s.plot px py) := by
  have hcollides : s.Collides (pixelAt px py) ↔ ∃ h : py < 32 ∧ px < 64, s.fb.pixel ⟨py, h.1⟩ ⟨px, h.2⟩ = true := by
    constructor
    · rintro ⟨row, col, hat, hon⟩
      obtain ⟨rfl, rfl⟩ := of_decide_eq_true hat
      exact ⟨⟨row.isLt, col.isLt⟩, hon⟩
    · rintro ⟨h, hon⟩
      exact ⟨_, _, decide_eq_true ⟨rfl, rfl⟩, hon⟩
  refine ⟨fun row col => ?_, fun hc => ?_, fun hc => ?_⟩
  · rw [State.plot_pixel, pixelAt]
    split <;> simp [*]
  · rw [State.plot_vf, if_pos (hcollides.1 hc)]
  · rw [State.plot_vf, if_neg (hcollides.not.1 hc)]

/-- The pixels under the 1 bits of the sprite byte `b` at column `sx` of row `py`, bit 7 leftmost (44_display.md R200). -/
def bytePixels (b : Byte) (sx py : Nat) : PixelSet := fun row col =>
  decide (py = row.val) && decide (sx ≤ col.val) && decide (col.val < sx + 8) && b.getLsbD (7 - (col.val - sx))

/-- A pixel is under a 1 bit of a byte when it is the pixel of one of the eight bits. -/
theorem any_range_pixelAt (b : Byte) (sx py : Nat) :
    (fun row col => (List.range 8).any fun c => b.getLsbD (7 - c) && pixelAt (sx + c) py row col) = bytePixels b sx py := by
  funext row col
  rw [Bool.eq_iff_iff]
  simp only [List.any_eq_true, List.mem_range, Bool.and_eq_true, pixelAt, bytePixels, decide_eq_true_eq]
  constructor
  · rintro ⟨c, hc, hbit, hrow, hcol⟩
    have hoffset : col.val - sx = c := by omega
    exact ⟨⟨⟨hrow, by omega⟩, by omega⟩, hoffset ▸ hbit⟩
  · rintro ⟨⟨⟨hrow, hle⟩, hlt⟩, hbit⟩
    exact ⟨col.val - sx, by omega, hbit, hrow, by omega⟩

theorem State.plotByte_draws (s : State) (b : Byte) (sx py : Nat) :
    Draws (bytePixels b sx py) s (s.plotByte b sx py) := by
  have hloop := Draws.foldl_range (s := s) (f := fun t c => if b.getLsbD (7 - c) then t.plot (sx + c) py else t)
    (hit := fun c row col => b.getLsbD (7 - c) && pixelAt (sx + c) py row col) ?disjoint ?round 8
  case disjoint =>
    intro c c' row col h h'
    simp only [pixelAt, Bool.and_eq_true, decide_eq_true_eq] at h h'
    omega
  case round =>
    intro c
    cases hbit : b.getLsbD (7 - c) with
    | true => simpa only [if_true, Bool.true_and] using State.plot_draws _ (sx + c) py
    | false => simpa only [Bool.false_eq_true, if_false, Bool.false_and] using Draws.empty _
  rwa [any_range_pixelAt] at hloop

/-- A pixel is under a 1 bit of a sprite when it is under one of a sprite row's byte. -/
theorem any_range_bytePixels (s : State) (x y : Reg) (n : Fin 16) :
    (fun row col => (List.range n.val).any fun r =>
      bytePixels (s.memRead (s.i.toNat + r)) ((s.getV x).toNat % 64) ((s.getV y).toNat % 32 + r) row col) =
    spriteHit s x y n := by
  funext row col
  rw [Bool.eq_iff_iff]
  simp only [List.any_eq_true, List.mem_range, Bool.and_eq_true, bytePixels, spriteHit, decide_eq_true_eq]
  constructor
  · rintro ⟨r, hr, ⟨⟨hrow, hle⟩, hlt⟩, hbit⟩
    have hoffset : row.val - (s.getV y).toNat % 32 = r := by omega
    exact ⟨⟨⟨⟨by omega, by omega⟩, hle⟩, hlt⟩, hoffset ▸ hbit⟩
  · rintro ⟨⟨⟨⟨htop, hbottom⟩, hle⟩, hlt⟩, hbit⟩
    exact ⟨row.val - (s.getV y).toNat % 32, by omega, ⟨⟨by omega, hle⟩, hlt⟩, hbit⟩

/-- The sprite loop reads memory and `I` as they are before it, since no pixel write touches them. -/
theorem State.plotRows_draws (s : State) (m sx sy : Nat) :
    Draws (fun row col => (List.range m).any fun r => bytePixels (s.memRead (s.i.toNat + r)) sx (sy + r) row col) s
      (s.plotRows m sx sy) := by
  refine Draws.foldl_range ?disjoint ?round m
  case disjoint =>
    intro r r' row col h h'
    simp only [bytePixels, Bool.and_eq_true, decide_eq_true_eq] at h h'
    omega
  case round =>
    intro r
    have hbyte : (s.plotRows r sx sy).memRead ((s.plotRows r sx sy).i.toNat + r) = s.memRead (s.i.toNat + r) := by
      rw [State.plotRows_i, State.memRead_of_mem (s.plotRows_mem r sx sy)]
    exact hbyte ▸ (s.plotRows r sx sy).plotByte_draws _ sx (sy + r)

/-! DRW. -/

/-- DRW draws the pixels under its sprite in the state with VF cleared; the sprite is placed before the clear (44_display.md
R202; decision D11). -/
theorem exec_drw_draws (h : exec (.drw x y n) s = .next t) : Draws (spriteHit s x y n) (s.setVF 0) t := by
  obtain rfl := exec_next h
  have hloop := (s.setVF 0).plotRows_draws n.val ((s.getV x).toNat % 64) ((s.getV y).toNat % 32)
  simp only [State.setVF_memRead, State.setVF_i, any_range_bytePixels] at hloop
  exact ⟨hloop.pixel, hloop.flag_of_collides, hloop.flag_of_not_collides⟩

/-- The flag of a draw: 1 on a collision (44_display.md R202). -/
theorem exec_drw_flag_of_collides (h : exec (.drw x y n) s = .next t) (hc : s.Collides (spriteHit s x y n)) :
    t.getV 15 = 1 :=
  (exec_drw_draws h).flag_of_collides hc

/-- The flag of a draw: 0 without a collision (44_display.md R202). -/
theorem exec_drw_flag_of_not_collides (h : exec (.drw x y n) s = .next t) (hc : ¬ s.Collides (spriteHit s x y n)) :
    t.getV 15 = 0 :=
  ((exec_drw_draws h).flag_of_not_collides hc).trans State.setV_getV_self

theorem exec_drw_flag_iff (h : exec (.drw x y n) s = .next t) : t.getV 15 = 1 ↔ s.Collides (spriteHit s x y n) := by
  refine ⟨fun hone => by_contra fun hc => ?_, exec_drw_flag_of_collides h⟩
  rw [exec_drw_flag_of_not_collides h hc] at hone
  exact absurd hone (by decide)

/-- The pixels under a sprite depend on its place and on memory alone, and a draw keeps memory and `I`. -/
theorem exec_drw_spriteHit (h : exec (.drw x y n) s = .next t) (hx : t.getV x = s.getV x) (hy : t.getV y = s.getV y) :
    spriteHit t x y n = spriteHit s x y n := by
  have hframe := exec_fieldsWritten h
  have hi : t.i = s.i := (congrArg State.i hframe :)
  have hmem : t.mem = s.mem := (congrArg State.mem hframe :)
  funext row col
  simp only [spriteHit, hx, hy, hi, State.memRead_of_mem hmem]

/-- Settles O35: the two loops draw each pixel under the sprite once, from a state whose VF is 0. -/
theorem drawFlipsThePixelsUnderTheSprite : Obligations.DrawFlipsThePixelsUnderTheSprite := by
  intro x y n s
  obtain ⟨t, h⟩ : ∃ t, exec (.drw x y n) s = .next t := ⟨_, rfl⟩
  refine ⟨t, h, ?frame, (exec_drw_draws h).pixel, ?flag, exec_drw_flag_iff h, fun r hr => ?others⟩
  case frame =>
    have hredraw : t.redraw = true := (onlyClearAndDrawTouchTheFramebuffer _ s t h).1 (.inr ⟨x, y, n, rfl⟩)
    exact hredraw ▸ exec_fieldsWritten h
  case flag =>
    by_cases hc : s.Collides (spriteHit s x y n)
    · exact .inr (exec_drw_flag_of_collides h hc)
    · exact .inl (exec_drw_flag_of_not_collides h hc)
  case others => exact by_contra fun hne => hr (exec_getV_ne h hne)

/-- Settles O36: both draws flip the same pixels, and a pixel under the sprite is on before the second exactly when it was
off before the first. -/
theorem drawingTwiceRestoresTheFramebuffer : Obligations.DrawingTwiceRestoresTheFramebuffer := by
  intro x y n s t u h h' hx hy
  have hsame := exec_drw_spriteHit h hx hy
  have hfirst : ∀ row col, t.fb.pixel row col = (s.fb.pixel row col ^^ spriteHit s x y n row col) := (exec_drw_draws h).pixel
  have hsecond : ∀ row col, u.fb.pixel row col = (t.fb.pixel row col ^^ spriteHit t x y n row col) :=
    (exec_drw_draws h').pixel
  refine ⟨Framebuffer.ext_pixel fun row col => ?restored, (exec_drw_flag_iff h').trans ?collision, fun hoff => ?clear⟩
  case restored => rw [hsecond, hsame, hfirst, Bool.xor_assoc, Bool.xor_self, Bool.xor_false]
  case collision =>
    rw [hsame]
    refine exists₂_congr fun row col => and_congr_right fun hhit => ?_
    rw [hfirst, hhit, Bool.xor_true, Bool.not_eq_true']
  case clear =>
    refine exec_drw_flag_of_not_collides h fun ⟨row, col, _, hon⟩ => ?_
    rw [hoff row col] at hon
    cases hon

/-! CLS, the redraw query, and the host at a halted block. -/

/-- Settles O34: the handler of CLS clears the framebuffer and sets the redraw flag. -/
theorem clearTurnsEveryPixelOff : Obligations.ClearTurnsEveryPixelOff :=
  ⟨decode_encode (i := .cls) rfl, fun _ => ⟨_, rfl, rfl, Framebuffer.pixel_clear⟩⟩

/-- Settles O37: the query's two parts, read off its definition. -/
theorem redrawQueryReadsAndClears : Obligations.RedrawQueryReadsAndClears := fun _ => ⟨rfl, rfl, rfl⟩

/-- Every host operation but `execute` leaves all but the key state, the redraw flag, memory and the model's own load flag
(00_scope.md R9; log entry 13). -/
theorem perform_fieldsWritten {op : HostOp} (hop : op ≠ .execute) (h : perform op s = .next t) :
    t = { s with key := t.key, redraw := t.redraw, mem := t.mem, loadable := t.loadable } := by
  cases op with
  | execute => exact absurd rfl hop
  | keyDown _ | keyUp _ | redrawQuery => cases h; rfl
  | loadProgram bytes =>
    rw [perform, State.loadProgram] at h
    split at h
    · cases h
      rw [State.storeBytes_eq]
    · cases h

/-- Settles O7: `execute` answers the fault, and no other host operation writes `halted`, `fault_cause`, `pc` or a register. -/
theorem haltedBlockHasNoStep : Obligations.HaltedBlockHasNoStep := by
  intro s hhalted
  have hfault : step s = .fault .halted := stepWith_halted _ hhalted
  refine ⟨hfault, fun op t h => ?_⟩
  have hop : op ≠ .execute := by
    rintro rfl
    cases hfault.symm.trans h
  rw [perform_fieldsWritten hop h]
  exact ⟨hop, hhalted, rfl, rfl, rfl⟩

end Sys2Proof.Machine
end

section
/-! Timers and key input (45_timers_input.md): the tick of a step and the transfers after it, the key scan, the key wait that
fetches its own word again, and the host's key events. -/

namespace Sys2Proof.Machine

variable {i : Instr} {s t : State} {x : Reg} {k : Fin 16} {due : Bool}

/-! The timers of a step. -/

/-- Every next state of a step comes from the handler of the next word, for either value of the step's `tick_due`. -/
theorem exec_of_stepWith (h : stepWith due s = .next t) : exec (decode s.nextWord) (s.beforeHandler due) = .next t := by
  cases hrun : s.halted with
  | true => cases (stepWith_halted due hrun).symm.trans h
  | false => exact (stepWith_running due hrun).symm.trans h

theorem exec_dt_of_not_ldDtVx (h : exec i s = .next t) (hi : ∀ x, i ≠ .ldDtVx x) : t.dt = s.dt := by
  by_contra hne
  obtain ⟨x, hx, -⟩ := exec_dt_ne h hne
  exact hi x hx

theorem exec_st_of_not_ldStVx (h : exec i s = .next t) (hi : ∀ x, i ≠ .ldStVx x) : t.st = s.st := by
  by_contra hne
  obtain ⟨x, hx, -⟩ := exec_st_ne h hne
  exact hi x hx

/-- Settles O9: the tick counts both timers down, and the handler keeps each one it is not the writer of. -/
theorem tickLowersEachTimerOncePerStep : Obligations.TickLowersEachTimerOncePerStep := by
  intro s t h
  have hexec := exec_of_stepWith h
  refine ⟨fun hi => ?delay, fun hi => ?sound⟩
  case delay =>
    rw [exec_dt_of_not_ldDtVx hexec hi]
    exact countdown_toNat _ s.dt
  case sound =>
    rw [exec_st_of_not_ldStVx hexec hi]
    exact countdown_toNat _ s.st

/-- Settles O10: each handler reads or writes the timers that the tick has left. -/
theorem timerTransfersFollowTheTick : Obligations.TimerTransfersFollowTheTick := by
  intro due s t x h
  have hnext := exec_next (exec_of_stepWith h)
  refine ⟨fun hdec => ?read, fun hdec => ?writeDelay, fun hdec => ?writeSound⟩ <;> rw [hdec] at hnext
  case read =>
    have hread : t.getV x = countdown due s.dt := (congrArg (State.getV · x) hnext).trans State.setV_getV_self
    exact ⟨hread ▸ countdown_toNat due s.dt, hread.trans (congrArg State.dt hnext).symm⟩
  case writeDelay => exact congrArg State.dt hnext
  case writeSound => exact congrArg State.st hnext

/-- Settles O38: the words are the instructions' own, and each handler is one write. -/
theorem timerTransfersCopyOneByte : Obligations.TimerTransfersCopyOneByte :=
  fun x => ⟨decode_encode (i := .ldVxDt x) rfl, decode_encode (i := .ldDtVx x) rfl, decode_encode (i := .ldStVx x) rfl,
    fun _ => ⟨rfl, rfl, rfl⟩⟩

/-! The key scan and the key wait. -/

theorem State.leastHeldKey?_eq_none (h : ∀ k : Fin 16, s.key[k] = false) : s.leastHeldKey? = none :=
  List.find?_eq_none.2 fun k _ => by simp [h k]

/-- The scan in ascending order stops at the least held key (45_timers_input.md R236, decision D13). -/
theorem State.leastHeldKey?_eq_some (hk : s.key[k] = true) (hlow : ∀ j : Fin 16, j < k → s.key[j] = false) :
    s.leastHeldKey? = some k := by
  refine List.find?_eq_some_iff_getElem.2 ⟨hk, k.val, by simp, by simp, fun j hj => ?_⟩
  have hfree := hlow ⟨j, hj.trans k.isLt⟩ hj
  simpa using hfree

/-- The rewind takes back the advance of the fetch modulo 4096, a fetch that wraps included (30_encoding.md R75;
45_timers_input.md R236; decision D14). -/
theorem State.rewind_beforeHandler_pc (s : State) (due : Bool) :
    (s.beforeHandler due).rewind.pc.toNat % memSize = s.pc.toNat % memSize := by
  have hfetch : (s.beforeHandler due).pc.toNat = (s.pc.toNat + 2) % memSize := s.beginStep.fetch_pc_toNat
  rw [State.rewind_pc, BitVec.toNat_sub, hfetch]
  simp only [memSize, BitVec.reduceToNat]
  omega

/-- A step that fetches a key wait with no key held is the fetch and the tick, then the rewind. -/
theorem eq_rewind_of_stepWith_ldVxK (h : stepWith due s = .next t) (hdec : decode s.nextWord = .ldVxK x)
    (hnone : ∀ k : Fin 16, s.key[k] = false) : t = (s.beforeHandler due).rewind := by
  have hexec := exec_of_stepWith h
  have hscan : (s.beforeHandler due).leastHeldKey? = none := State.leastHeldKey?_eq_none hnone
  rw [hdec, exec_ldVxK_of_noneHeld hscan] at hexec
  exact (Host.Outcome.next.inj hexec).symm

/-- Settles O42: the scan finds no key, so the handler rewinds; and the rewind brings the next fetch back to the same word. -/
theorem keyWaitStallsUntilAKeyIsHeld : Obligations.KeyWaitStallsUntilAKeyIsHeld := by
  refine ⟨fun x s hnone => exec_ldVxK_of_noneHeld (State.leastHeldKey?_eq_none hnone), ?_⟩
  intro x s t h hdec hnone
  obtain rfl := eq_rewind_of_stepWith_ldVxK h hdec hnone
  have hpc := s.rewind_beforeHandler_pc (Config.tickDue s.tickSamples)
  exact ⟨hpc, State.nextWord_congr rfl hpc, rfl⟩

/-- Settles O41: the scan finds the key, whose index fits a byte. -/
theorem keyWaitStoresTheLeastHeldKey : Obligations.KeyWaitStoresTheLeastHeldKey := by
  intro x k s hk hlow
  refine ⟨_, exec_ldVxK_of_held (State.leastHeldKey?_eq_some hk hlow), rfl, ?index, fun r hr => State.setV_getV_of_ne hr⟩
  case index =>
    rw [State.setV_getV_self, trunc8_toNat]
    omega

/-! The host's key events. -/

/-- An operation that answers with one key written. -/
theorem exists_setKey {o : Host.Outcome State Fault Refusal} {held : Bool} (ho : o = .next (s.setKey k held)) :
    ∃ t, o = .next t ∧ t = { s with key := t.key } ∧ t.key[k] = held ∧ ∀ j : Fin 16, j ≠ k → t.key[j] = s.key[j] := by
  refine ⟨_, ho, rfl, Vector.getElem_set_self k.isLt, fun j hj => ?_⟩
  exact Vector.getElem_set_ne k.isLt j.isLt (Fin.val_ne_of_ne hj.symm)

/-- Settles O43: each event is one write of the key state. -/
theorem keyEventsSetOneKey : Obligations.KeyEventsSetOneKey :=
  fun _ _ => ⟨exists_setKey rfl, exists_setKey rfl⟩

end Sys2Proof.Machine
end

section
/-! Faults (60_exceptions.md section 2): the condition and the cause of each entry into the halted state, and that no other
instruction enters it. -/

namespace Sys2Proof.Machine

theorem State.keyAt?_of_gt {s : State} {x : Reg} (h : 15 < (s.getV x).toNat) : s.keyAt? x = none := by
  rw [State.keyAt?_eq, dif_neg (by omega)]

/-- Settles O51: the frame of every instruction but four keeps `halted`, and each of the four halts the block in its fault
alone. -/
theorem onlyThreeCausesHaltTheBlock : Obligations.OnlyThreeCausesHaltTheBlock := by
  intro i s t h hrun hhalted
  have hne : t.halted ≠ s.halted := by simp [hrun, hhalted]
  have hw := exec_fieldsWritten h
  have hn := exec_next h
  cases i
  case ret =>
    obtain ⟨hempty, rfl⟩ | ⟨_, _, -, rfl⟩ := hn
    · exact .inl ⟨rfl, hempty, rfl⟩
    · exact absurd rfl hne
  case skp x | sknp x =>
    obtain ⟨held, rfl⟩ | ⟨hindex, rfl⟩ := hn
    · exact absurd (s.skipIf_halted held) hne
    · exact .inr (.inl ⟨x, by simp, hindex, rfl⟩)
  case call nnn =>
    obtain ⟨hfull, rfl⟩ | ⟨-, rfl⟩ := hn
    · exact .inr (.inr ⟨nnn, rfl, hfull, rfl⟩)
    · exact absurd rfl hne
  all_goals exact absurd (congrArg State.halted hw :) hne

/-- Settles O14: the fault of a full stack writes `halted` and `fault_cause` alone. -/
theorem callFaultsOnAFullStack : Obligations.CallFaultsOnAFullStack :=
  fun _ _ hfull => exec_call_of_full hfull

/-- Settles O40: an index above 15 names no key, and both skips fault on it. -/
theorem keySkipsFaultPastTheLastKey : Obligations.KeySkipsFaultPastTheLastKey := by
  intro x s hindex
  have hkey : s.keyAt? x = none := State.keyAt?_of_gt hindex
  exact ⟨exec_skp_of_noKey hkey, exec_sknp_of_noKey hkey⟩

end Sys2Proof.Machine
end

section
/-! Construction (70_reset_and_hazards.md R291): the bytes it stores over the reset state, and the zeros above them. -/

namespace Sys2Proof.Machine

theorem defaultFont_length : defaultFont.length = 80 := rfl

/-- Above the font an address no entry lists is zero (10_state.md R40). -/
theorem unlistedByte_of_ge {a : Nat} (h : 0x50 ≤ a) : unlistedByte a = 0 :=
  List.getD_eq_default _ _ (defaultFont_length.trans_le h)

/-- The parameters do not touch the reset memory, which lists nothing. -/
theorem memRead_reset_withParams (p : Params) (a : Nat) :
    ({ State.reset with params := p } : State).memRead a = unlistedByte (a % memSize) := rfl

/-- The 80 bytes of `FONT` fit below 4096, so each is read back where construction put it. -/
theorem construct_memRead_font (p : Params) (font : Vector Byte 80) (k : Fin 80) :
    (State.construct p font).memRead k.val = font[k] := by
  have hlen : font.toList.length = 80 := font.length_toList
  have hread : (State.construct p font).memRead (0 + k.val) = font.toList[k.val] :=
    State.memRead_storeBytes (reset_withParams_inv p).memWf (by rw [hlen]; decide) (hlen.symm ▸ k.isLt)
  rw [Nat.zero_add] at hread
  exact hread.trans (Vector.getElem_toList _)

/-- Construction stores at 0x000 to 0x04F only, so an address above reads as it does at reset. -/
theorem construct_memRead_above (p : Params) (font : Vector Byte 80) {a : Nat} (hlo : 0x50 ≤ a) (hhi : a ≤ 0xFFF) :
    (State.construct p font).memRead a = 0 := by
  have hmod : a % memSize = a := Nat.mod_eq_of_lt (Nat.lt_succ_of_le hhi)
  have hout : ∀ k < font.toList.length, a % memSize ≠ (0 + k) % memSize := by
    intro k hk
    rw [font.length_toList] at hk
    rw [memSize]
    omega
  calc (State.construct p font).memRead a
      = ({ State.reset with params := p } : State).memRead a := State.memRead_storeBytes_ne hout
    _ = unlistedByte a := by rw [memRead_reset_withParams, hmod]
    _ = 0 := unlistedByte_of_ge hlo

/-- Settles O53: construction is one store of the font's bytes into the memory of the reset state. -/
theorem constructionPreloadsTheFont : Obligations.ConstructionPreloadsTheFont :=
  fun p font => ⟨construct_memRead_font p font, fun _ => construct_memRead_above p font, State.storeBytes_eq _ _ _⟩

end Sys2Proof.Machine
end
